-- ==== Sys2Proof/Word.lean ====
section
/-! DEFINITION. The word types of CEX-CORE (spec/00_scope.md R16 to R20): bytes, 32-bit words, 64-bit words,
16-byte blocks and byte strings. Signed values do not occur (R16). -/

namespace Sys2Proof

/-- One byte of DMEM or of a byte string (R17). -/
abbrev Byte := BitVec 8

/-- A 32-bit word: a REG register, a descriptor word, a Salsa20 word (R16, R20). -/
abbrev Word := BitVec 32

/-- A 64-bit word: a BLAKE2b word or a Keccak lane (R20). -/
abbrev Word64 := BitVec 64

/-- A 16-byte block as a 128-bit string; bit `X_0` of R19 is the most significant bit. -/
abbrev Block := BitVec 128

/-- A byte string, lowest address first (R17). -/
abbrev Bytes := List Byte

end Sys2Proof
end

