-- ==== Sys2Proof/Syntax.lean ====
section
/-! DEFINITION. The commands of CEX-CORE, one constructor per row of spec/opcode_table.json (spec/30_encoding.md
R118), their units (R112), and the pseudo-commands of R122. -/

namespace Sys2Proof

/-- The eight units (R2, R112). -/
inductive UnitId where
  | sys | gh | ctr | gcm | dg | ss | jent | drbg
deriving DecidableEq, Repr

/-- The unit number of R112. -/
def UnitId.number : UnitId → Nat
  | .sys => 0 | .gh => 1 | .ctr => 2 | .gcm => 3 | .dg => 4 | .ss => 5 | .jent => 6 | .drbg => 7

/-- The algorithm of unit DG, flag ALG of DG.INIT (R114): 0 BLAKE2b-512, 1 Keccak-512. -/
inductive HashAlg where
  | blake2b | keccak
deriving DecidableEq, Repr

/-- The 35 commands. Address, offset and length operands are the 32-bit descriptor words of R113; `tagLen`, `rounds`
and `target` are IMM8 (R115); the remaining operands are the FLAGS bits of R114. -/
inductive Instr where
  /-- `sys.nop`, R381. -/
  | sysNop
  /-- `sys.reset`, R382. -/
  | sysReset
  /-- `sys.setpar <unit>, on|off, <degree>, <block>`, R384. -/
  | sysSetpar (target : Byte) (en : Bool) (degree block : Word)
  /-- `gh.init <addr>`, R194. -/
  | ghInit (addr : Word)
  /-- `gh.update <src>, <len>`, R195. -/
  | ghUpdate (src len : Word)
  /-- `gh.segment <src>, <len>`, R196. -/
  | ghSegment (src len : Word)
  /-- `gh.final <aad_len>, <msg_len>, <dst>`, R197. -/
  | ghFinal (aadLen msgLen dst : Word)
  /-- `gh.reset`, R198. -/
  | ghReset
  /-- `gh.read <dst>`, R199. -/
  | ghRead (dst : Word)
  /-- `gh.destroy`, R200. -/
  | ghDestroy
  /-- `ctr.init <kc>, <kclen>`, R212. -/
  | ctrInit (kc len : Word)
  /-- `ctr.xform <src>, <dst>, <len>`, R213. -/
  | ctrXform (src dst len : Word)
  /-- `ctr.destroy`, R216. -/
  | ctrDestroy
  /-- `gcm.init enc|dec[, autoinc][, keepad], <kc>, <kclen>`, R238. -/
  | gcmInit (enc autoInc keepAd : Bool) (kc len : Word)
  /-- `gcm.aad <src>, <len>`, R240. -/
  | gcmAad (src len : Word)
  /-- `gcm.xform <src>, <dst>, <len>`, R242. -/
  | gcmXform (src dst len : Word)
  /-- `gcm.final <base>, <offset>, <tag_len>`, R248. -/
  | gcmFinal (base offset : Word) (tagLen : Byte)
  /-- `gcm.verify <base>, <offset>, <tag_len>`, R250. -/
  | gcmVerify (base offset : Word) (tagLen : Byte)
  /-- `gcm.destroy`, R252. -/
  | gcmDestroy
  /-- `dg.init blake2b|keccak, <rec>, <reclen>`, R288. -/
  | dgInit (alg : HashAlg) (addr len : Word)
  /-- `dg.update <src>, <len>`, R291. -/
  | dgUpdate (src len : Word)
  /-- `dg.final <dst>`, R292. -/
  | dgFinal (dst : Word)
  /-- `dg.reset`, R296. -/
  | dgReset
  /-- `dg.compute <src>, <dst>, <len>`, R297. -/
  | dgCompute (src dst len : Word)
  /-- `dg.destroy`, R298. -/
  | dgDestroy
  /-- `ss.init <rounds>, <kc>, <kclen>`, R333. -/
  | ssInit (rounds : Byte) (kc len : Word)
  /-- `ss.xform <src>, <dst>, <len>`, R334. -/
  | ssXform (src dst len : Word)
  /-- `ss.destroy`, R338. -/
  | ssDestroy
  /-- `jent.get <dst>, <len>`, R354. -/
  | jentGet (dst len : Word)
  /-- `jent.next`, R355. -/
  | jentNext
  /-- `jent.avail`, R356. -/
  | jentAvail
  /-- `drbg.init b2|keccak|aes, <seed>, <seedlen>`, R362; kind 3 is an illegal value the command itself refuses. -/
  | drbgInit (kind : BitVec 2) (seed len : Word)
  /-- `drbg.gen <dst>, <len>`, R363. -/
  | drbgGen (dst len : Word)
  /-- `drbg.reset`, R364. -/
  | drbgReset
  /-- `drbg.destroy`, R365. -/
  | drbgDestroy
deriving DecidableEq, Repr

/-- The unit that executes a command: the high nibble of its opcode byte (R119). -/
def Instr.unit : Instr → UnitId
  | .sysNop | .sysReset | .sysSetpar _ _ _ _ => .sys
  | .ghInit _ | .ghUpdate _ _ | .ghSegment _ _ | .ghFinal _ _ _ | .ghReset | .ghRead _ | .ghDestroy => .gh
  | .ctrInit _ _ | .ctrXform _ _ _ | .ctrDestroy => .ctr
  | .gcmInit _ _ _ _ _ | .gcmAad _ _ | .gcmXform _ _ _ | .gcmFinal _ _ _ | .gcmVerify _ _ _ | .gcmDestroy => .gcm
  | .dgInit _ _ _ | .dgUpdate _ _ | .dgFinal _ | .dgReset | .dgCompute _ _ _ | .dgDestroy => .dg
  | .ssInit _ _ _ | .ssXform _ _ _ | .ssDestroy => .ss
  | .jentGet _ _ | .jentNext | .jentAvail => .jent
  | .drbgInit _ _ _ | .drbgGen _ _ | .drbgReset | .drbgDestroy => .drbg

/-- The operation number of a command: the low nibble of its opcode byte (R119). -/
def Instr.operation : Instr → Nat
  | .sysNop => 0 | .sysReset => 1 | .sysSetpar _ _ _ _ => 2
  | .ghInit _ => 0 | .ghUpdate _ _ => 1 | .ghSegment _ _ => 2 | .ghFinal _ _ _ => 3 | .ghReset => 4
  | .ghRead _ => 5 | .ghDestroy => 6
  | .ctrInit _ _ => 0 | .ctrXform _ _ _ => 1 | .ctrDestroy => 2
  | .gcmInit _ _ _ _ _ => 0 | .gcmAad _ _ => 1 | .gcmXform _ _ _ => 2 | .gcmFinal _ _ _ => 3
  | .gcmVerify _ _ _ => 4 | .gcmDestroy => 5
  | .dgInit _ _ _ => 0 | .dgUpdate _ _ => 1 | .dgFinal _ => 2 | .dgReset => 3 | .dgCompute _ _ _ => 4 | .dgDestroy => 5
  | .ssInit _ _ _ => 0 | .ssXform _ _ _ => 1 | .ssDestroy => 2
  | .jentGet _ _ => 0 | .jentNext => 1 | .jentAvail => 2
  | .drbgInit _ _ _ => 0 | .drbgGen _ _ => 1 | .drbgReset => 2 | .drbgDestroy => 3

/-- Pseudo-command `ctr.block <src>, <dst>` (R122). -/
def Instr.ctrBlock (src dst : Word) : Instr := .ctrXform src dst 16

/-- Pseudo-command `gcm.tag <dst>` (R122). -/
def Instr.gcmTag (dst : Word) : Instr := .gcmFinal dst 0 16

/-- Pseudo-command `gcm.check <src>` (R122). -/
def Instr.gcmCheck (src : Word) : Instr := .gcmVerify src 0 16

/-- Pseudo-command `dg.hash <src>, <len>, <dst>` (R122). -/
def Instr.dgHash (src len dst : Word) : Instr := .dgCompute src dst len

end Sys2Proof
end

