-- ==== Sys2Proof/Config.lean ====
section
/-! DEFINITION. What an implementation fixes (spec/00_scope.md R11, R12) and the free values: what the spec leaves
open is an opaque constant without a body, so that nothing can be proved about its value. -/

namespace Sys2Proof

/-- The build parameters of R12 that are numbers or flags. They never change after the hardware is built (R11); the
state carries them in its field `cfg`, which no step writes, so that every statement about all states speaks about
every configuration; `Machine.build` is the machine with them as its argument (log 1). -/
structure Params where
  /-- Bytes of DMEM, `DMEM_SIZE`. -/
  dmemSize : Nat
  /-- SIMD lanes, `LANES`; no result depends on it (R386). -/
  lanes : Nat
  /-- Workers of a parallel phase, `NPROC`. -/
  nproc : Nat
  /-- Bytes of the retained-AAD buffer, `AAD_MAX`. -/
  aadMax : Nat
  /-- Unit JENT is present, `HAS_JENT`. -/
  hasJent : Bool
  /-- Unit DRBG is present, `HAS_DRBG`. -/
  hasDrbg : Bool
  /-- Bytes of the DRBG output buffer, `DRBG_BUF`. -/
  drbgBuf : Nat
  /-- Minimum seed of the block-cipher-counter generator, `DRBG_MINSEED_CIPHER`. -/
  drbgMinSeedCipher : Nat
deriving DecidableEq, Repr

/-- The legal values of the parameters (R12, column "legal values"). -/
abbrev Params.legal (p : Params) : Prop :=
  64 ≤ p.dmemSize ∧ p.dmemSize ≤ 2 ^ 32 - 1 ∧ (p.lanes = 4 ∨ p.lanes = 8) ∧
    1 ≤ p.nproc ∧ p.nproc ≤ 254 ∧ p.aadMax ≤ 2 ^ 32 - 1 ∧ 64 ≤ p.drbgBuf

/-- The example configuration of spec/92_eei_decisions.md section 7, with both optional units present and
`DRBG_BUF = 64` as in the vectors V-RNG of spec/95_test_vectors.md, and the 48-byte seed of its V-ENC table as the
minimum of the cipher variant. DESIGN CHOICE (log 1): the spec leaves every one of them OPEN. Unsafe for a claim
about `State.reset` alone. -/
def Params.standard : Params :=
  { dmemSize := 4096, lanes := 4, nproc := 4, aadMax := 64, hasJent := true, hasDrbg := true,
    drbgBuf := 64, drbgMinSeedCipher := 48 }

/-- Free value: byte number `n` of the oracle stream that unit JENT delivers (R352, U6; log 8). -/
opaque Config.jentByte : Nat → Byte

/-- Free value: the 32-bit draw of JENT.NEXT at draw number `n` (R352, R355; log 8). -/
opaque Config.jentWord : Nat → Word

/-- Free value: `jent.available` as a hardware reset during a run draws it (R353, U7; log 17). -/
opaque Config.jentAvailable : Nat → Bool

/-- Free value: `jent.prev_delta` after draw number `n` (R352, U8; log 4). -/
opaque Config.jentPrevDelta : Nat → Nat

/-- Free value: `jent.prev_delta2` after draw number `n` (R352, U8; log 4). -/
opaque Config.jentPrevDelta2 : Nat → Nat

/-- Free value: byte `i` of the scratch region `jent.mem` after draw number `n` (R352, U8; log 4). -/
opaque Config.jentScratch : Nat → Nat → Byte

/-- Free value: `jent.mempos` after draw number `n` (R352, U8; log 4). -/
opaque Config.jentMempos : Nat → Nat

/-- Free value: `jent.stuck` after draw number `n` (R352, U8; log 4). -/
opaque Config.jentStuck : Nat → Nat

/-- Free value: `jent.osr` after draw number `n` (R352, U8; log 4). -/
opaque Config.jentOsr : Nat → Nat

/-- Free value: the DMEM byte at address `a` after the hardware reset at draw number `n` (R81, U5; log 17). -/
opaque Config.dmemByte : Nat → Nat → Byte

/-- Free value: byte `i` that a DMEM read returns which the host makes while a command runs, at draw number `n`
(R450; log 7). -/
opaque Config.busyReadByte : Nat → Nat → Byte

/-- Free value: the DMEM byte at address `a` after a DMEM write that the host makes while a command runs, at draw
number `n` (R450; log 7). -/
opaque Config.spoiltByte : Nat → Nat → Byte

/-- The open function `DRBG_SEED(kind, seed)` of R366; the generator's state is a byte string (log 9). -/
opaque Config.drbgSeed : BitVec 2 → Bytes → Bytes

/-- Byte `i` of the first component of the open function `DRBG_GEN(kind, gstate, n)` of R366 (log 9). -/
opaque Config.drbgGenByte : BitVec 2 → Bytes → Nat → Nat → Byte

/-- The second component of the open function `DRBG_GEN(kind, gstate, n)` of R366 (log 9). -/
opaque Config.drbgGenState : BitVec 2 → Bytes → Nat → Bytes

end Sys2Proof
end

