-- ==== Sys2Proof/WellFormed.lean ====
section
/-! DEFINITION. When a command is well-formed. Every operand field has exactly the width of its descriptor field
(spec/30_encoding.md R113), and an operand value outside its legal set is a matter of the command, not of its form
(R115). What remains is that the command exists in the build: "The rows of units 6 and 7 exist only when `HAS_JENT`
and `HAS_DRBG` are true" (R118). -/

namespace Sys2Proof

/-- The unit is present in a build with these two parameters (R6, R116 step 2). -/
def UnitId.present (hasJent hasDrbg : Bool) : UnitId → Bool
  | .jent => hasJent
  | .drbg => hasDrbg
  | _ => true

/-- A command is well-formed in a build when its unit is present (R118). -/
def Instr.wellFormed (p : Params) (i : Instr) : Bool := i.unit.present p.hasJent p.hasDrbg

end Sys2Proof
end

