-- ==== Sys2Proof/Decode.lean ====
section
/-! DEFINITION. The command encoding (spec/30_encoding.md R110 to R118): the opcode table, the total decoder, which
answers a command or the decoding error of R116, and the encoder, written from the same table. -/

namespace Sys2Proof

/-- A descriptor: the four words W0 to W3 (R110). -/
structure Desc where
  w0 : Word
  w1 : Word
  w2 : Word
  w3 : Word
deriving DecidableEq, Repr

/-- Field OP, W0[3:0] (R110). -/
def Desc.op (d : Desc) : BitVec 4 := d.w0.extractLsb' 0 4

/-- Field UNIT, W0[7:4] (R110). -/
def Desc.unit (d : Desc) : BitVec 4 := d.w0.extractLsb' 4 4

/-- The opcode byte W0[7:0], the pair (UNIT, OP) (R110). -/
def Desc.opcode (d : Desc) : Byte := d.w0.extractLsb' 0 8

/-- Field FLAGS, W0[15:8] (R110). -/
def Desc.flags (d : Desc) : Byte := d.w0.extractLsb' 8 8

/-- Field IMM8, W0[23:16] (R110). -/
def Desc.imm8 (d : Desc) : Byte := d.w0.extractLsb' 16 8

/-- The reserved bits W0[31:24] (R110). -/
def Desc.reserved (d : Desc) : Byte := d.w0.extractLsb' 24 8

/-- The three decoding errors (R116, R402). -/
inductive DecodeError where
  | illegalUnit | illegalOp | reservedNonzero
deriving DecidableEq, Repr

/-- What the decoder answers (R116): "a total function from four words to either a command with its operands or a
decoding error". -/
inductive Decoded where
  | command (i : Instr)
  | illegal (e : DecodeError)
deriving DecidableEq, Repr

/-- The ten formats of R111. -/
inductive Format where
  | Z | A | K | S | X | T | D | L | P | G
deriving DecidableEq, Repr

/-- The format uses W1; where it does not, W1 must be 0 (R111). -/
def Format.usesA : Format → Bool
  | .A | .K | .S | .X | .T | .L | .P => true
  | .Z | .D | .G => false

/-- The format uses W2; where it does not, W2 must be 0 (R111). -/
def Format.usesB : Format → Bool
  | .X | .T | .D | .L | .G => true
  | .Z | .A | .K | .S | .P => false

/-- The format uses W3; where it does not, W3 must be 0 (R111). -/
def Format.usesN : Format → Bool
  | .K | .S | .X | .L | .P | .G => true
  | .Z | .A | .T | .D => false

/-- One row of the command table (R118): the opcode byte, the format, the FLAGS bits the command defines (R114),
whether it defines IMM8 (R115), and the command a descriptor stands for. -/
structure OpRow where
  opcode : Byte
  format : Format
  flags : Byte
  imm : Bool
  build : Desc → Instr

/-- The rows of units SYS, GH and CTR (R118). -/
def tableSysGhCtr : List OpRow :=
  [ ⟨0x00, .Z, 0, false, fun _ => .sysNop⟩,
    ⟨0x01, .Z, 0, false, fun _ => .sysReset⟩,
    ⟨0x02, .P, 1, true, fun d => .sysSetpar d.imm8 (d.flags.getLsbD 0) d.w1 d.w3⟩,
    ⟨0x10, .A, 0, false, fun d => .ghInit d.w1⟩,
    ⟨0x11, .S, 0, false, fun d => .ghUpdate d.w1 d.w3⟩,
    ⟨0x12, .S, 0, false, fun d => .ghSegment d.w1 d.w3⟩,
    ⟨0x13, .L, 0, false, fun d => .ghFinal d.w1 d.w3 d.w2⟩,
    ⟨0x14, .Z, 0, false, fun _ => .ghReset⟩,
    ⟨0x15, .D, 0, false, fun d => .ghRead d.w2⟩,
    ⟨0x16, .Z, 0, false, fun _ => .ghDestroy⟩,
    ⟨0x20, .K, 0, false, fun d => .ctrInit d.w1 d.w3⟩,
    ⟨0x21, .X, 0, false, fun d => .ctrXform d.w1 d.w2 d.w3⟩,
    ⟨0x22, .Z, 0, false, fun _ => .ctrDestroy⟩ ]

/-- The rows of units GCM and DG (R118). -/
def tableGcmDg : List OpRow :=
  [ ⟨0x30, .K, 7, false,
      fun d => .gcmInit (d.flags.getLsbD 0) (d.flags.getLsbD 1) (d.flags.getLsbD 2) d.w1 d.w3⟩,
    ⟨0x31, .S, 0, false, fun d => .gcmAad d.w1 d.w3⟩,
    ⟨0x32, .X, 0, false, fun d => .gcmXform d.w1 d.w2 d.w3⟩,
    ⟨0x33, .T, 0, true, fun d => .gcmFinal d.w1 d.w2 d.imm8⟩,
    ⟨0x34, .T, 0, true, fun d => .gcmVerify d.w1 d.w2 d.imm8⟩,
    ⟨0x35, .Z, 0, false, fun _ => .gcmDestroy⟩,
    ⟨0x40, .S, 1, false, fun d => .dgInit (if d.flags.getLsbD 0 then .keccak else .blake2b) d.w1 d.w3⟩,
    ⟨0x41, .S, 0, false, fun d => .dgUpdate d.w1 d.w3⟩,
    ⟨0x42, .D, 0, false, fun d => .dgFinal d.w2⟩,
    ⟨0x43, .Z, 0, false, fun _ => .dgReset⟩,
    ⟨0x44, .X, 0, false, fun d => .dgCompute d.w1 d.w2 d.w3⟩,
    ⟨0x45, .Z, 0, false, fun _ => .dgDestroy⟩ ]

/-- The rows of units SS, JENT and DRBG (R118). -/
def tableSsJentDrbg : List OpRow :=
  [ ⟨0x50, .K, 0, true, fun d => .ssInit d.imm8 d.w1 d.w3⟩,
    ⟨0x51, .X, 0, false, fun d => .ssXform d.w1 d.w2 d.w3⟩,
    ⟨0x52, .Z, 0, false, fun _ => .ssDestroy⟩,
    ⟨0x60, .G, 0, false, fun d => .jentGet d.w2 d.w3⟩,
    ⟨0x61, .Z, 0, false, fun _ => .jentNext⟩,
    ⟨0x62, .Z, 0, false, fun _ => .jentAvail⟩,
    ⟨0x70, .S, 3, false, fun d => .drbgInit (d.flags.extractLsb' 0 2) d.w1 d.w3⟩,
    ⟨0x71, .G, 0, false, fun d => .drbgGen d.w2 d.w3⟩,
    ⟨0x72, .Z, 0, false, fun _ => .drbgReset⟩,
    ⟨0x73, .Z, 0, false, fun _ => .drbgDestroy⟩ ]

/-- The complete command table (R118). -/
def opTable : List OpRow := tableSysGhCtr ++ tableGcmDg ++ tableSsJentDrbg

/-- The row a descriptor selects: the one with its opcode byte (R118: "the opcode bytes are all different"). -/
def rowOf (opcode : Byte) : Option OpRow := opTable.find? fun r => r.opcode == opcode

/-- Step 2 of R116: the unit number is reserved, or the unit is absent from the build. -/
def unitAbsent (hasJent hasDrbg : Bool) (unit : BitVec 4) : Bool :=
  8 ≤ unit.toNat || (unit.toNat == 6 && !hasJent) || (unit.toNat == 7 && !hasDrbg)

/-- Step 4 of R116: a FLAGS bit the command does not define is 1, or IMM8 is not 0 for a command that does not
define it, or a word that the command's format marks "0" is not 0. -/
def reservedSet (r : OpRow) (d : Desc) : Bool :=
  (d.flags &&& ~~~ r.flags) != 0 || (!r.imm && d.imm8 != 0) ||
    (!r.format.usesA && d.w1 != 0) || (!r.format.usesB && d.w2 != 0) || (!r.format.usesN && d.w3 != 0)

/-- Decoding (R116), in the order of its four steps; "the first failure wins". -/
def decode (hasJent hasDrbg : Bool) (d : Desc) : Decoded :=
  if d.reserved != 0 then .illegal .reservedNonzero
  else if unitAbsent hasJent hasDrbg d.unit then .illegal .illegalUnit
  else match rowOf d.opcode with
    | none => .illegal .illegalOp
    | some r => if reservedSet r d then .illegal .reservedNonzero else .command (r.build d)

/-- The opcode word W0 = reserved 0, IMM8, FLAGS, opcode byte (R110). -/
def opWord (opcode flags imm8 : Byte) : Word := 0#8 ++ imm8 ++ flags ++ opcode

/-- Flag bit `k` of FLAGS (R114). -/
def flagBit (k : Nat) (b : Bool) : Byte := if b then 1#8 <<< k else 0

/-- The descriptor of a command (R110, R111, R114, R115, R118). -/
def encode : Instr → Desc
  | .sysNop => ⟨opWord 0x00 0 0, 0, 0, 0⟩
  | .sysReset => ⟨opWord 0x01 0 0, 0, 0, 0⟩
  | .sysSetpar target en degree block => ⟨opWord 0x02 (flagBit 0 en) target, degree, 0, block⟩
  | .ghInit addr => ⟨opWord 0x10 0 0, addr, 0, 0⟩
  | .ghUpdate src len => ⟨opWord 0x11 0 0, src, 0, len⟩
  | .ghSegment src len => ⟨opWord 0x12 0 0, src, 0, len⟩
  | .ghFinal aadLen msgLen dst => ⟨opWord 0x13 0 0, aadLen, dst, msgLen⟩
  | .ghReset => ⟨opWord 0x14 0 0, 0, 0, 0⟩
  | .ghRead dst => ⟨opWord 0x15 0 0, 0, dst, 0⟩
  | .ghDestroy => ⟨opWord 0x16 0 0, 0, 0, 0⟩
  | .ctrInit kc len => ⟨opWord 0x20 0 0, kc, 0, len⟩
  | .ctrXform src dst len => ⟨opWord 0x21 0 0, src, dst, len⟩
  | .ctrDestroy => ⟨opWord 0x22 0 0, 0, 0, 0⟩
  | .gcmInit enc autoInc keepAd kc len =>
    ⟨opWord 0x30 (flagBit 0 enc ||| flagBit 1 autoInc ||| flagBit 2 keepAd) 0, kc, 0, len⟩
  | .gcmAad src len => ⟨opWord 0x31 0 0, src, 0, len⟩
  | .gcmXform src dst len => ⟨opWord 0x32 0 0, src, dst, len⟩
  | .gcmFinal base offset tagLen => ⟨opWord 0x33 0 tagLen, base, offset, 0⟩
  | .gcmVerify base offset tagLen => ⟨opWord 0x34 0 tagLen, base, offset, 0⟩
  | .gcmDestroy => ⟨opWord 0x35 0 0, 0, 0, 0⟩
  | .dgInit alg addr len => ⟨opWord 0x40 (flagBit 0 (alg == .keccak)) 0, addr, 0, len⟩
  | .dgUpdate src len => ⟨opWord 0x41 0 0, src, 0, len⟩
  | .dgFinal dst => ⟨opWord 0x42 0 0, 0, dst, 0⟩
  | .dgReset => ⟨opWord 0x43 0 0, 0, 0, 0⟩
  | .dgCompute src dst len => ⟨opWord 0x44 0 0, src, dst, len⟩
  | .dgDestroy => ⟨opWord 0x45 0 0, 0, 0, 0⟩
  | .ssInit rounds kc len => ⟨opWord 0x50 0 rounds, kc, 0, len⟩
  | .ssXform src dst len => ⟨opWord 0x51 0 0, src, dst, len⟩
  | .ssDestroy => ⟨opWord 0x52 0 0, 0, 0, 0⟩
  | .jentGet dst len => ⟨opWord 0x60 0 0, 0, dst, len⟩
  | .jentNext => ⟨opWord 0x61 0 0, 0, 0, 0⟩
  | .jentAvail => ⟨opWord 0x62 0 0, 0, 0, 0⟩
  | .drbgInit kind seed len => ⟨opWord 0x70 (kind.setWidth 8) 0, seed, 0, len⟩
  | .drbgGen dst len => ⟨opWord 0x71 0 0, 0, dst, len⟩
  | .drbgReset => ⟨opWord 0x72 0 0, 0, 0, 0⟩
  | .drbgDestroy => ⟨opWord 0x73 0 0, 0, 0, 0⟩

/-- The descriptor whose 128 bits are the low `nbits` bits of `w`: W0 holds bits 31..0, W1 bits 63..32 and so on;
bits at and above `nbits` are 0. -/
def descOfNat (nbits w : Nat) : Desc :=
  let v := w % 2 ^ nbits
  ⟨BitVec.ofNat 32 v, BitVec.ofNat 32 (v / 2 ^ 32), BitVec.ofNat 32 (v / 2 ^ 64), BitVec.ofNat 32 (v / 2 ^ 96)⟩

/-- The 128 bits of a descriptor as one number, W0 lowest (R110). -/
def Desc.bits (d : Desc) : Nat := d.w0.toNat + 2 ^ 32 * d.w1.toNat + 2 ^ 64 * d.w2.toNat + 2 ^ 96 * d.w3.toNat

/-- The command the decoder reads from the descriptor with bits `w`, in a build with every unit present (the table
lists the rows of the optional units too); none for a decoding error. -/
def decodeTableWord (nbits w : Nat) : Option Instr :=
  match decode true true (descOfNat nbits w) with
  | .command i => some i
  | .illegal _ => none

end Sys2Proof
end

