-- ==== Sys2Proof/Machine/State.lean ====
section
/-! DEFINITION. The state of CEX-CORE as plain data (spec/10_state.md R30 to R65, spec/20_memory.md R80), the reasons
a step can stop, the error causes (spec/60_exceptions.md R402), and the state after hardware reset (R64, R440). -/

namespace Sys2Proof.Machine

/-- The lifecycle phases of R32. Units CTR, DG, SS and DRBG use only `uninit` and `ready`. -/
inductive Phase where
  | uninit | ready | aadLoaded | transforming | finalized
deriving DecidableEq, Repr

/-- The error kinds of R401. `authenticationFailure` is reserved and never raised (R404). -/
inductive ErrKind where
  | invalidKeyMaterial | invalidState | invalidParameter | authenticationFailure | providerUnavailable | shortBuffer
deriving DecidableEq, Repr

/-- The error causes of R402. `bufferSize` is reserved and never raised. -/
inductive Cause where
  | illegalUnit | illegalOp | reservedNonzero
  | containerLen | keyLen | nonceLen | infoLen | nonceRepeat | nonceWrap | seedLen
  | notInitialized | aadOrder | verifyEncrypt | afterFinalize | afterTail
  | tagLen | parDegree | parBlock | rounds | lengthAlign | overlap
  | dgDigestLen | dgLeafLen | dgNode | dgSeqParams | aadTooLong | setparUnit | bufferSize | drbgKind
  | jentUnavailable | srcRange | dstRange
deriving DecidableEq, Repr

/-- The register STATUS (R36), its defined fields. Bits 1, 7:5 and 31:24 read 0 and have no storage; the host cannot
write the register. -/
structure Status where
  /-- A command has been issued and has not ended. -/
  busy : Bool
  /-- The last command ended with `raise`. -/
  err : Bool
  /-- The last command was GCM.VERIFY and the tags were equal. -/
  vok : Bool
  /-- Sticky: the host broke the protocol of R450. -/
  fault : Bool
  /-- Error kind of the last command. -/
  ekind : BitVec 4
  /-- Unit number that raised. -/
  eunit : BitVec 4
  /-- Cause code. -/
  ecause : Byte
deriving DecidableEq, Repr

/-- A parallel profile (R43). -/
structure Par where
  en : Bool
  /-- `parallel_max_degree`. -/
  degree : Byte
  /-- `parallel_block_size`. -/
  block : Word
deriving DecidableEq, Repr

/-- Unit GH (R44). -/
structure GhUnit where
  /-- `gh.H`, the hash subkey. -/
  H : Block
  /-- `gh.X`, the running authenticator. -/
  X : Block
deriving DecidableEq, Repr

/-- Unit CTR (R45); `ctr.klen` is the length of `key` (log 11). -/
structure CtrUnit where
  phase : Phase
  key : Bytes
  /-- `ctr.c`, the big-endian 128-bit counter. -/
  c : Block
  par : Par
deriving DecidableEq, Repr

/-- Unit GCM (R46 to R52); `gcm.klen`, `nlen`, `guard_klen`, `guard_nlen` and `aad_keep_len` are lengths of the
byte strings they count (log 11). -/
structure GcmUnit where
  phase : Phase
  key : Bytes
  /-- `gcm.N`, the nonce. -/
  N : Bytes
  /-- The hash subkey. -/
  H : Block
  /-- The initial counter block. -/
  J0 : Block
  /-- The running counter. -/
  c : Block
  /-- The running authenticator. -/
  X : Block
  aadSize : Word64
  msgSize : Word64
  /-- The tag buffer (R49). -/
  tag : Block
  /-- The session encrypts (R50). -/
  enc : Bool
  autoInc : Bool
  preserveAd : Bool
  /-- A GCM.XFORM of this session had a length that is not a multiple of 16 (R50). -/
  tail : Bool
  guardValid : Bool
  guardKey : Bytes
  guardN : Bytes
  /-- The bytes held of `gcm.aad_store` (R52). -/
  aadStore : Bytes
  aadKept : Bool
  par : Par
deriving DecidableEq, Repr

/-- The tree parameters `dg.prm` (R54); `node_offset` and `node_depth` are not stored. -/
structure DgPrm where
  digestLen : Byte
  keyLen : Byte
  fanout : Byte
  depth : Byte
  leafLen : Word
  innerLen : Byte
  threadCount : Byte
deriving DecidableEq, Repr

/-- One leaf slot of unit DG: the BLAKE2b leaf state (R55) and the Keccak leaf state in plain lanes (R56); only the
one selected by `dg.alg` is meaningful (log 12). -/
structure Leaf where
  /-- Chain vector. -/
  h : Vector Word64 8
  /-- 128-bit byte count. -/
  t : BitVec 128
  /-- Last-block flag. -/
  f0 : Word64
  /-- Last-node flag. -/
  f1 : Word64
  /-- 25 lanes, lane index `x + 5y`. -/
  A : Vector Word64 25
deriving DecidableEq, Repr

/-- Unit DG (R54 to R57); `dg.P` is the fanout, `dg.buflen` the length of `buf` (log 11), slots at and above `dg.P`
are zero and not listed (log 12). -/
structure DgUnit where
  phase : Phase
  alg : HashAlg
  prm : DgPrm
  key : Bytes
  leaves : List Leaf
  /-- The bytes held of the input buffer. -/
  buf : Bytes
deriving DecidableEq, Repr

/-- Unit SS (R59). -/
structure SsUnit where
  phase : Phase
  rounds : Byte
  /-- `ss.s`, the sixteen state words. -/
  s : Vector Word 16
  par : Par
deriving DecidableEq, Repr

/-- DMEM and every byte store: (address, byte) pairs with strictly rising addresses and no byte equal to what an
unlisted address reads as (Machine/Memory.lean). -/
abbrev Memory := List Host.Cell

/-- Unit JENT (R60). -/
structure JentUnit where
  available : Bool
  prevDelta : Nat
  prevDelta2 : Nat
  /-- The memory-access scratch region of 512 x 32 bytes. -/
  mem : Memory
  mempos : Nat
  stuck : Nat
  osr : Nat
deriving DecidableEq, Repr

/-- Unit DRBG (R61). -/
structure DrbgUnit where
  phase : Phase
  kind : BitVec 2
  seed : Bytes
  /-- The state of the open generator, as a byte string (R366; log 9). -/
  gstate : Bytes
  /-- The output buffer of `DRBG_BUF` bytes. -/
  buf : Bytes
  idx : Nat
deriving DecidableEq, Repr

/-- The moves of the host (R450). `width` is the width of a register access in bytes (R90). -/
inductive HostMove where
  | readReg (width offset : Nat)
  | writeReg (width offset : Nat) (v : Word)
  | readDmem (addr n : Nat)
  | writeDmem (addr : Nat) (bytes : Bytes)
  | hardReset
deriving DecidableEq, Repr

/-- A move of the host and whether the host makes it without waiting for `BUSY = 0` (R450; log 7). -/
structure HostEvent where
  move : HostMove
  early : Bool
deriving DecidableEq, Repr

/-- What the host gets back (R452, R461): a register's value, bytes of DMEM, or the pair (STATUS, RESULT) at the end of
a command. -/
inductive Reply where
  | reg (v : Word)
  | dmem (bytes : Bytes)
  | ended (status result : Word)
deriving DecidableEq, Repr

/-- Why a step stops with a fault. No command raises one; each belongs to a move of the host. -/
inductive Fault where
  /-- The host accesses DMEM outside addresses 0 to `DMEM_SIZE - 1`, which do not exist (R80; log 14). Safe. -/
  | noSuchDmemAddress
  /-- The host accesses REG outside its 256 bytes (R33; log 13). Safe. -/
  | noSuchRegister
  /-- A step in the fault state, that is with STATUS.FAULT = 1, which is not a hardware reset: "no claim about later
  results holds" (R450), "stuck" until hardware reset (U1, U2; log 7). Safe. -/
  | protocolBroken
deriving DecidableEq, Repr

/-- Why a step is refused. -/
inductive Refusal where
  /-- `exec`'s arm for a command that has no meaning yet. Safe. No arm answers it. -/
  | notModelled (mnemonic : String)
  /-- The host accesses REG at a misaligned offset or with another width than 32 bits: "a model refuses it"
  (R90, U17). Safe. -/
  | registerAccessForm
deriving DecidableEq, Repr

/-- The state of the machine. The field `cfg` and the last three fields are the model's own
bookkeeping, not the spec's. -/
structure State where
  /-- The build parameters, not state of the chip (R11): the fixed types of `exec` and `step` leave no other place for
  them, no step writes them, and `build` makes them an argument again (log 1). -/
  cfg : Params
  /-- REG STATUS (R36). -/
  status : Status
  /-- REG RESULT (R37). -/
  result : Word
  /-- REG DESC0 to DESC3 (R38). -/
  desc0 : Word
  desc1 : Word
  desc2 : Word
  desc3 : Word
  gh : GhUnit
  ctr : CtrUnit
  gcm : GcmUnit
  dg : DgUnit
  ss : SsUnit
  jent : JentUnit
  drbg : DrbgUnit
  /-- The buffer memory (R80). -/
  dmem : Memory
  /-- The moves the host has still to make, next first (R31, R461; log 5). -/
  inbox : List HostEvent
  /-- What the host has been given back, latest first (R461; log 20). -/
  outbox : List Reply
  /-- The number of the next free value (R352; log 8). -/
  draws : Nat
deriving DecidableEq, Repr

/-- STATUS after reset (R36, R64). -/
def Status.reset : Status :=
  { busy := false, err := false, vok := false, fault := false, ekind := 0, eunit := 0, ecause := 0 }

/-- A parallel profile after reset (R43). -/
def Par.reset : Par := { en := false, degree := 0, block := 0 }

/-- Unit GH after reset (R64). -/
def GhUnit.reset : GhUnit := { H := 0, X := 0 }

/-- Unit CTR after reset (R64). -/
def CtrUnit.reset : CtrUnit := { phase := .uninit, key := [], c := 0, par := Par.reset }

/-- Unit GCM after reset (R64). -/
def GcmUnit.reset : GcmUnit :=
  { phase := .uninit, key := [], N := [], H := 0, J0 := 0, c := 0, X := 0, aadSize := 0, msgSize := 0, tag := 0,
    enc := false, autoInc := false, preserveAd := false, tail := false, guardValid := false, guardKey := [],
    guardN := [], aadStore := [], aadKept := false, par := Par.reset }

/-- A zero leaf slot (R55, R56). -/
def Leaf.zero : Leaf := { h := Vector.replicate 8 0, t := 0, f0 := 0, f1 := 0, A := Vector.replicate 25 0 }

/-- Zero tree parameters (R54). -/
def DgPrm.zero : DgPrm :=
  { digestLen := 0, keyLen := 0, fanout := 0, depth := 0, leafLen := 0, innerLen := 0, threadCount := 0 }

/-- Unit DG after reset (R64). -/
def DgUnit.reset : DgUnit :=
  { phase := .uninit, alg := .blake2b, prm := DgPrm.zero, key := [], leaves := [], buf := [] }

/-- Unit SS after reset (R64). -/
def SsUnit.reset : SsUnit := { phase := .uninit, rounds := 0, s := Vector.replicate 16 0, par := Par.reset }

/-- Unit JENT at `State.reset`: the spec says "a draw" for `available` and "unspecified" for the rest (R64). DESIGN
CHOICE (logs 3 and 4): available, the rest 0. Unsafe for a claim about `State.reset` alone. -/
def JentUnit.reset : JentUnit :=
  { available := true, prevDelta := 0, prevDelta2 := 0, mem := [], mempos := 0, stuck := 0, osr := 0 }

/-- Unit DRBG after reset (R64): `DRBG_BUF` zero bytes in the buffer. -/
def DrbgUnit.reset (p : Params) : DrbgUnit :=
  { phase := .uninit, kind := 0, seed := [], gstate := [], buf := List.replicate p.drbgBuf 0, idx := 0 }

/-- The state after hardware reset of a build `p`, for given contents of what the spec leaves unspecified: DMEM (R81)
and unit JENT (R60) (R64, R440). -/
def State.resetWith (p : Params) (dmem : Memory) (jent : JentUnit) : State :=
  { cfg := p, status := Status.reset, result := 0, desc0 := 0, desc1 := 0, desc2 := 0, desc3 := 0,
    gh := GhUnit.reset, ctr := CtrUnit.reset, gcm := GcmUnit.reset, dg := DgUnit.reset, ss := SsUnit.reset,
    jent := jent, drbg := DrbgUnit.reset p, dmem := dmem, inbox := [], outbox := [], draws := 0 }

/-- The machine right after reset (R64, R440), in the standard configuration (log 1), with no DMEM byte listed (log 2)
and `jent.available` true (log 3). The engine is idle and waits for the host's first move. -/
def State.reset : State := State.resetWith Params.standard [] JentUnit.reset

end Sys2Proof.Machine
end

