-- ==== Sys2Proof/Machine/Flags.lean ====
section
/-! DEFINITION. The flags and codes the host reads: the kind and code of an error cause (spec/60_exceptions.md R401,
R402), the phase codes and the REG registers composed from the state (spec/10_state.md R32 to R40). -/

namespace Sys2Proof.Machine

/-- The 4-bit code of an error kind (R401). -/
def ErrKind.code : ErrKind → BitVec 4
  | .invalidKeyMaterial => 1
  | .invalidState => 2
  | .invalidParameter => 3
  | .authenticationFailure => 4
  | .providerUnavailable => 5
  | .shortBuffer => 6

/-- The kind of a cause is fixed (R402). -/
def Cause.kind : Cause → ErrKind
  | .illegalUnit | .illegalOp | .reservedNonzero => .invalidParameter
  | .containerLen | .keyLen | .nonceLen | .infoLen | .nonceRepeat | .nonceWrap | .seedLen => .invalidKeyMaterial
  | .notInitialized | .aadOrder | .verifyEncrypt | .afterFinalize | .afterTail => .invalidState
  | .tagLen | .parDegree | .parBlock | .rounds | .lengthAlign | .overlap => .invalidParameter
  | .dgDigestLen | .dgLeafLen | .dgNode | .dgSeqParams | .aadTooLong | .setparUnit | .bufferSize | .drbgKind =>
    .invalidParameter
  | .jentUnavailable => .providerUnavailable
  | .srcRange | .dstRange => .shortBuffer

/-- The 8-bit code of a cause (R402). -/
def Cause.code : Cause → Byte
  | .illegalUnit => 0x01
  | .illegalOp => 0x02
  | .reservedNonzero => 0x03
  | .containerLen => 0x10
  | .keyLen => 0x11
  | .nonceLen => 0x12
  | .infoLen => 0x13
  | .nonceRepeat => 0x14
  | .nonceWrap => 0x15
  | .seedLen => 0x16
  | .notInitialized => 0x20
  | .aadOrder => 0x21
  | .verifyEncrypt => 0x22
  | .afterFinalize => 0x23
  | .afterTail => 0x24
  | .tagLen => 0x30
  | .parDegree => 0x31
  | .parBlock => 0x32
  | .rounds => 0x33
  | .lengthAlign => 0x34
  | .overlap => 0x35
  | .dgDigestLen => 0x36
  | .dgLeafLen => 0x37
  | .dgNode => 0x38
  | .dgSeqParams => 0x39
  | .aadTooLong => 0x3A
  | .setparUnit => 0x3B
  | .bufferSize => 0x3C
  | .drbgKind => 0x3D
  | .jentUnavailable => 0x50
  | .srcRange => 0x60
  | .dstRange => 0x61

/-- The 4-bit code of a phase (R32). -/
def Phase.code : Phase → BitVec 4
  | .uninit => 0
  | .ready => 1
  | .aadLoaded => 2
  | .transforming => 3
  | .finalized => 4

/-- One bit. -/
def bit (b : Bool) : BitVec 1 := BitVec.ofBool b

/-- Register ID (R33). -/
def idWord : Word := 0x43455810

/-- Register CAP (R34). -/
def capWord (p : Params) : Word :=
  0#14 ++ bit p.hasDrbg ++ bit p.hasJent ++ BitVec.ofNat 8 p.nproc ++ BitVec.ofNat 8 p.lanes

/-- Register STATUS (R36, R431). -/
def statusWord (st : Status) : Word :=
  0#8 ++ st.ecause ++ st.eunit ++ st.ekind ++ 0#3 ++ bit st.fault ++ bit st.vok ++ bit st.err ++ 0#1 ++ bit st.busy

/-- Register PHASES (R39). -/
def phasesWord (s : State) : Word :=
  s.drbg.phase.code ++ 0#4 ++ s.ss.phase.code ++ s.dg.phase.code ++ s.gcm.phase.code ++ s.ctr.phase.code ++ 0#4 ++ 0#4

/-- Register PARDEG (R40). -/
def pardegWord (s : State) : Word :=
  0#5 ++ bit s.ss.par.en ++ bit s.gcm.par.en ++ bit s.ctr.par.en ++ s.ss.par.degree ++ s.gcm.par.degree ++
    s.ctr.par.degree

/-- What a REG register reads as, by its offset; an offset of the space that is not in the table reads 0 (R33). -/
def regRead (s : State) (offset : Nat) : Word :=
  match offset with
  | 0x00 => idWord
  | 0x04 => capWord s.cfg
  | 0x08 => BitVec.ofNat 32 s.cfg.dmemSize
  | 0x0C => BitVec.ofNat 32 s.cfg.aadMax
  | 0x10 => statusWord s.status
  | 0x14 => s.result
  | 0x18 => phasesWord s
  | 0x20 => s.desc0
  | 0x24 => s.desc1
  | 0x28 => s.desc2
  | 0x2C => s.desc3
  | 0x30 => pardegWord s
  | 0x34 => s.ctr.par.block
  | 0x38 => s.gcm.par.block
  | 0x3C => s.ss.par.block
  | _ => 0

end Sys2Proof.Machine
end

