-- ==== Sys2Proof/Machine/Bytes.lean ====
section
/-! DEFINITION. Byte strings and their conversions (spec/00_scope.md R17, R18). -/

namespace Sys2Proof.Machine

/-- `zeros(n)`: n zero bytes (R17). -/
def zeros (n : Nat) : Bytes := List.replicate n 0

/-- `s[a..b)` (R17). -/
def slice (s : Bytes) (a b : Nat) : Bytes := (s.drop a).take (b - a)

/-- Bytewise exclusive-or, cut to the shorter string (R17). -/
def xorBytes (s t : Bytes) : Bytes := List.zipWith (· ^^^ ·) s t

/-- `s` followed by zero bytes up to length `n`. -/
def padTo (n : Nat) (s : Bytes) : Bytes := s ++ zeros (n - s.length)

/-- `pad16(s)`: the least number of zero bytes that makes the length a multiple of 16 (R17). -/
def pad16 (s : Bytes) : Bytes := s ++ zeros ((16 - s.length % 16) % 16)

/-- `LE(s)` (R18). -/
def leNat : Bytes → Nat
  | [] => 0
  | b :: s => b.toNat + 256 * leNat s

/-- `BE(s)` (R18). -/
def beNat (s : Bytes) : Nat := leNat s.reverse

/-- `le_n(v)` (R18): the n-byte little-endian string of `v mod 256^n`. -/
def leBytes : Nat → Nat → Bytes
  | 0, _ => []
  | n + 1, v => BitVec.ofNat 8 v :: leBytes n (v / 256)

/-- `be_n(v)` (R18). -/
def beBytes (n v : Nat) : Bytes := (leBytes n v).reverse

/-- The block of 16 bytes, first byte most significant (R19, R86). -/
def blockOfBytes (s : Bytes) : Block := BitVec.ofNat 128 (beNat s)

/-- The 16 bytes of a block, most significant first (R19, R86). -/
def blockBytes (b : Block) : Bytes := beBytes 16 b.toNat

/-- A little-endian 32-bit word (R86, Salsa20). -/
def le32 (s : Bytes) : Word := BitVec.ofNat 32 (leNat s)

/-- A little-endian 64-bit word (R86, BLAKE2b and Keccak). -/
def le64 (s : Bytes) : Word64 := BitVec.ofNat 64 (leNat s)

/-- `chunksFuel k f s`: `s` cut into pieces of `k` bytes, the last one possibly shorter; `f` bounds the number of
pieces. -/
def chunksFuel (k : Nat) : Nat → Bytes → List Bytes
  | 0, _ => []
  | f + 1, s => if s.isEmpty then [] else s.take k :: chunksFuel k f (s.drop k)

/-- `s` cut into pieces of `k` bytes, the last one possibly shorter; no piece for the empty string. -/
def chunks (k : Nat) (s : Bytes) : List Bytes := chunksFuel k s.length s

end Sys2Proof.Machine
end

