-- ==== Sys2Proof/Machine/Memory.lean ====
section
/-! DEFINITION. The byte store: what an unlisted address reads as, reading and writing bytes, and the canonical form
(spec/20_memory.md R80, R81, R92; spec/00_scope.md R21). -/

namespace Sys2Proof.Machine

/-- What an address that no entry lists reads as. The spec leaves DMEM unspecified after reset (R81, U5): DESIGN CHOICE
zero (log 2). Unsafe for a claim that starts at `State.reset`; a claim about every state does not rest on it. -/
def Memory.unlisted : Byte := 0

/-- The byte at address `a`. -/
def Memory.readByte : Memory → Nat → Byte
  | [], _ => Memory.unlisted
  | (k, b) :: m, a => if k = a then b else Memory.readByte m a

/-- The store with byte `b` at address `a`, in canonical form. -/
def Memory.writeByte : Memory → Nat → Byte → Memory
  | [], a, b => if b = Memory.unlisted then [] else [(a, b)]
  | (k, c) :: m, a, b =>
    if a < k then (if b = Memory.unlisted then (k, c) :: m else (a, b) :: (k, c) :: m)
    else if a = k then (if b = Memory.unlisted then m else (a, b) :: m)
    else (k, c) :: Memory.writeByte m a b

/-- `MemRead(a, n)` (R21). -/
def Memory.readBytes (m : Memory) (a n : Nat) : Bytes := (List.range n).map fun i => m.readByte (a + i)

/-- `MemWrite(a, n, v)` with `n` the length of `v` (R21). -/
def Memory.writeBytes : Memory → Nat → Bytes → Memory
  | m, _, [] => m
  | m, a, b :: v => Memory.writeBytes (m.writeByte a b) (a + 1) v

/-- The canonical form: addresses strictly rising, no entry equal to what an unlisted address reads as. -/
abbrev Memory.wf (m : Memory) : Prop :=
  m.Pairwise (fun x y => x.1 < y.1) ∧ ∀ x ∈ m, x.2 ≠ Memory.unlisted

/-- Every listed address is below `n`. -/
abbrev Memory.below (m : Memory) (n : Nat) : Prop := ∀ x ∈ m, x.1 < n

end Sys2Proof.Machine
end

