-- ==== Sys2Proof/Machine/Operands.lean ====
section
/-! DEFINITION. The operand forms (spec/20_memory.md): ranges in DMEM and their checks (R82 to R85), the effective
address of a tag (R98), the key container (R95, R96), and the tree-parameter record (spec/45_treehash.md R283). -/

namespace Sys2Proof.Machine

/-- `InRange(a, n)` (R83, R84), on unbounded naturals (R82). -/
def inRange (p : Params) (a n : Nat) : Bool := n == 0 || a + n ≤ p.dmemSize

/-- `overlap(a, b, n)`: two ranges of n > 0 bytes that are neither the same nor disjoint (R85). -/
def overlap (a b n : Nat) : Bool := 0 < n && a != b && !(a + n ≤ b) && !(b + n ≤ a)

/-- The bytes of the range of a descriptor's address and length words (R82). -/
def operand (s : State) (a n : Word) : Bytes := s.dmem.readBytes a.toNat n.toNat

/-- `EA = W1 + W2` as a natural number, with no wrap (R98). -/
def tagAddress (base offset : Word) : Nat := base.toNat + offset.toNat

/-- The parts of a key container (R95). -/
structure KeyContainer where
  key : Bytes
  nonce : Bytes
  info : Bytes
deriving DecidableEq, Repr

/-- The three length prefixes `klen`, `nlen`, `ilen` of a container (R95). -/
def containerKlen (kc : Bytes) : Nat := leNat (slice kc 0 2)
/-- See `containerKlen`. -/
def containerNlen (kc : Bytes) : Nat := leNat (slice kc 2 4)
/-- See `containerKlen`. -/
def containerIlen (kc : Bytes) : Nat := leNat (slice kc 4 6)

/-- The length checks of `ParseKC`: at least six bytes, and exactly the sum of the lengths (R96). -/
def containerFits (kc : Bytes) : Bool :=
  6 ≤ kc.length && 6 + containerKlen kc + containerNlen kc + containerIlen kc == kc.length

/-- The key, nonce and info of a container (R95). -/
def parseContainer (kc : Bytes) : KeyContainer :=
  let k := containerKlen kc
  let n := containerNlen kc
  let i := containerIlen kc
  { key := slice kc 6 (6 + k), nonce := slice kc (6 + k) (6 + k + n), info := slice kc (6 + k + n) (6 + k + n + i) }

/-- A legal AES key length (R144, R231). -/
def aesKeyLegal (key : Bytes) : Bool := key.length == 16 || key.length == 24 || key.length == 32

/-- The fields of the tree-parameter record (R283). -/
structure DgRecord where
  digestLen : Byte
  keyLen : Byte
  fanout : Byte
  depth : Byte
  leafLen : Word
  nodeOffset : Word64
  nodeDepth : Byte
  innerLen : Byte
  threadCount : Byte
  key : Bytes
deriving DecidableEq, Repr

/-- The record read from its bytes (R283, R288). -/
def parseDgRecord (r : Bytes) : DgRecord :=
  { digestLen := r.getD 0 0, keyLen := r.getD 1 0, fanout := r.getD 2 0, depth := r.getD 3 0,
    leafLen := le32 (slice r 4 8), nodeOffset := le64 (slice r 8 16), nodeDepth := r.getD 16 0,
    innerLen := r.getD 17 0, threadCount := r.getD 18 0, key := r.drop 19 }

end Sys2Proof.Machine
end

