-- ==== Sys2Proof/Machine/Ops.lean ====
section
/-! DEFINITION. The shared operations: issuing a command and ending it (spec/10_state.md R36 to R38), zeroizing a unit
(R65), and raising an error, the exception of this machine (spec/60_exceptions.md R405, R410, R411). There is no return
from an error (R412). -/

namespace Sys2Proof.Machine

/-! ### Issue and end of a command -/

/-- The write of DESC0 that issues a command: BUSY becomes 1, the fields of the last command and RESULT become 0
(R36, R38, R450). -/
def issue (w0 : Word) (s : State) : State :=
  { s with
    desc0 := w0
    result := 0
    status := { busy := true, err := false, vok := false, fault := s.status.fault, ekind := 0, eunit := 0,
                ecause := 0 } }

/-- `STATUS.VOK <- ok; result(v)`: the successful end of a command (R36, R37). The fields that the issue cleared are
cleared here too, so that a command run without the step that issues it ends the same way (log 6). -/
def finishWith (ok : Bool) (v : Word) (s : State) : State :=
  { s with
    result := v
    status := { busy := false, err := false, vok := ok, fault := s.status.fault, ekind := 0, eunit := 0,
                ecause := 0 } }

/-- `result(v)` (R37). -/
def finish (v : Word) (s : State) : State := finishWith false v s

/-! ### Zeroize -/

/-- `Zeroize(CTR)`: the profile is kept (R65). -/
def CtrUnit.zeroize (u : CtrUnit) : CtrUnit := { CtrUnit.reset with par := u.par }

/-- `Zeroize(GCM)` without the guard: the guard and the profile are kept (R65). -/
def GcmUnit.zeroize (u : GcmUnit) : GcmUnit :=
  { GcmUnit.reset with guardValid := u.guardValid, guardKey := u.guardKey, guardN := u.guardN, par := u.par }

/-- `Zeroize(GCM)` with the guard: only the profile is kept (R65, R252). -/
def GcmUnit.zeroizeWithGuard (u : GcmUnit) : GcmUnit := { GcmUnit.reset with par := u.par }

/-- `Zeroize(SS)`: the profile is kept (R65). -/
def SsUnit.zeroize (u : SsUnit) : SsUnit := { SsUnit.reset with par := u.par }

/-! ### Errors -/

/-- The unit effect of an error (R410). SYS and JENT: none. GCM in phase Finalized: none. -/
def unitEffect (u : UnitId) (s : State) : State :=
  match u with
  | .sys => s
  | .gh => { s with gh := GhUnit.reset }
  | .ctr => { s with ctr := s.ctr.zeroize }
  | .gcm => if s.gcm.phase = .finalized then s else { s with gcm := s.gcm.zeroize }
  | .dg => { s with dg := DgUnit.reset }
  | .ss => { s with ss := s.ss.zeroize }
  | .jent => s
  | .drbg => { s with drbg := DrbgUnit.reset s.cfg }

/-- `raise`: what an error of a command of unit `u` does (R405). -/
def raiseError (u : UnitId) (c : Cause) (s : State) : State :=
  { unitEffect u s with
    result := 0
    status := { busy := false, err := true, vok := false, fault := s.status.fault, ekind := c.kind.code,
                eunit := BitVec.ofNat 4 u.number, ecause := c.code } }

/-- The cause of a decoding error (R402). -/
def decodeCause : DecodeError → Cause
  | .illegalUnit => .illegalUnit
  | .illegalOp => .illegalOp
  | .reservedNonzero => .reservedNonzero

/-- A decoding error: EUNIT is 0 and no unit changes, as for unit SYS (R116, R411). -/
def raiseDecode (e : DecodeError) (s : State) : State := raiseError .sys (decodeCause e) s

/-- A command of unit `u`: its checks, in the order of its rule, answer the first failure; with none, it has its
effect (R406, R407). -/
def command (u : UnitId) (failure : Option Cause) (effect s : State) : Host.Outcome State Fault Refusal :=
  match failure with
  | some c => .next (raiseError u c s)
  | none => .next effect

/-! ### Memory operands and results -/

/-- The range checks of a command of format X with equal lengths: source, destination, overlap (R83, R85). -/
def xformRangeCheck (src dst len : Word) (s : State) : Option Cause :=
  if !inRange s.cfg src.toNat len.toNat then some .srcRange
  else if !inRange s.cfg dst.toNat len.toNat then some .dstRange
  else if overlap src.toNat dst.toNat len.toNat then some .overlap
  else none

/-- `MemWrite(a, n, v)` on DMEM (R21). -/
def State.storeBytes (s : State) (a : Nat) (v : Bytes) : State := { s with dmem := s.dmem.writeBytes a v }

/-- The bytes of `f 0`, `f 1`, ..., `f (n - 1)`. -/
def drawBytes (f : Nat → Byte) (n : Nat) : Bytes := (List.range n).map f

end Sys2Proof.Machine
end

