-- ==== Sys2Proof/Machine/Jent.lean ====
section
/-! DEFINITION. Unit JENT (spec/47_entropy_drbg.md R350 to R357). Its outputs are draws: free values, applied to the
counter `draws` of the state (R352; log 8). The six steps of R351 are inside the draws (R352, log 8). -/

namespace Sys2Proof.Machine

/-- Unit JENT with the internal state that R351 names free, as it is after draw number `n`: JENT.GET and JENT.NEXT
change it "in an unspecified way" (R352; log 4). -/
def JentUnit.drawn (u : JentUnit) (n : Nat) : JentUnit :=
  { u with
    prevDelta := Config.jentPrevDelta n
    prevDelta2 := Config.jentPrevDelta2 n
    mem := Memory.writeBytes [] 0 (drawBytes (Config.jentScratch n) 16384)
    mempos := Config.jentMempos n
    stuck := Config.jentStuck n
    osr := Config.jentOsr n }

/-- `n` byte draws (R352). -/
def jentBytes (s : State) (n : Nat) : Bytes := drawBytes (fun i => Config.jentByte (s.draws + i)) n

/-- The checks of JENT.GET (R354). -/
def jentGetCheck (dst len : Word) (s : State) : Option Cause :=
  if !s.jent.available then some .jentUnavailable
  else if !inRange s.cfg dst.toNat len.toNat then some .dstRange
  else none

/-- The effect of JENT.GET: N draws to DMEM (R354). -/
def jentGetEffect (dst len : Word) (s : State) : State :=
  finish 0
    ({ s with jent := s.jent.drawn (s.draws + len.toNat), draws := s.draws + len.toNat + 1 }.storeBytes dst.toNat
      (jentBytes s len.toNat))

/-- JENT.GET (R354). -/
def execJentGet (dst len : Word) (s : State) : Host.Outcome State Fault Refusal :=
  command .jent (jentGetCheck dst len s) (jentGetEffect dst len s) s

/-- JENT.NEXT (R355). -/
def execJentNext (s : State) : Host.Outcome State Fault Refusal :=
  command .jent (if !s.jent.available then some .jentUnavailable else none)
    (finish (Config.jentWord s.draws) { s with jent := s.jent.drawn s.draws, draws := s.draws + 1 }) s

/-- JENT.AVAIL (R356). -/
def execJentAvail (s : State) : Host.Outcome State Fault Refusal :=
  command .jent none (finish (if s.jent.available then 1 else 0) s) s

end Sys2Proof.Machine
end

