-- ==== Sys2Proof/Machine/HostPort.lean ====
section
/-! DEFINITION. The moves of the host (spec/70_reset_and_hazards.md R440, R450, R452; spec/20_memory.md R90). -/

namespace Sys2Proof.Machine

/-- What the host is given back by a move (R452). -/
def reply (r : Reply) (s : State) : State := { s with outbox := r :: s.outbox }

/-- The form of a register access: a whole 32-bit word at a multiple of 4 (R90). -/
def regForm (width offset : Nat) : Bool := width == 4 && offset % 4 == 0

/-- The size of the register space in bytes (R33). -/
def regSpace : Nat := 256

/-- The guard of every register access: its form (R90) and the register space (R33; log 13). -/
def regAccess (width offset : Nat) (t : State) : Host.Outcome State Fault Refusal :=
  if !regForm width offset then .refused .registerAccessForm
  else if regSpace ≤ offset then .fault .noSuchRegister
  else .next t

/-- A register write while BUSY is 0: DESC1 to DESC3 store, DESC0 stores and issues (R38); a read-only or unlisted
offset ignores the write (R33). -/
def regWrite (offset : Nat) (v : Word) (s : State) : State :=
  match offset with
  | 0x20 => issue v s
  | 0x24 => { s with desc1 := v }
  | 0x28 => { s with desc2 := v }
  | 0x2C => { s with desc3 := v }
  | _ => s

/-- The guard of every DMEM access of the host: the bytes exist (R80, R84; log 14). -/
def dmemAccess (s : State) (a n : Nat) (t : State) : Host.Outcome State Fault Refusal :=
  if inRange s.cfg a n then .next t else .fault .noSuchDmemAddress

/-- The free contents of DMEM after the hardware reset at draw number `n` (R81, R440 (c); log 17). -/
def freeDmem (p : Params) (n : Nat) : Memory := Memory.writeBytes [] 0 (drawBytes (Config.dmemByte n) p.dmemSize)

/-- Unit JENT after the hardware reset at draw number `n`: `available` is drawn anew, the rest is unspecified
(R353, R440 (d); log 17). -/
def freeJent (n : Nat) : JentUnit := { JentUnit.reset with available := Config.jentAvailable n }.drawn n

/-- Hardware reset (R440). What belongs to the host, its moves and what it has been given back, stays (log 17). -/
def hardReset (s : State) : State :=
  { State.resetWith s.cfg (freeDmem s.cfg s.draws) (freeJent s.draws) with
    inbox := s.inbox, outbox := s.outbox, draws := s.draws + 1 }

/-- A move of the host while BUSY is 0 (R450). -/
def hostMove (m : HostMove) (s : State) : Host.Outcome State Fault Refusal :=
  match m with
  | .readReg width offset => regAccess width offset (reply (.reg (regRead s offset)) s)
  | .writeReg width offset v => regAccess width offset (regWrite offset v s)
  | .readDmem addr n => dmemAccess s addr n (reply (.dmem (s.dmem.readBytes addr n)) s)
  | .writeDmem addr bytes => dmemAccess s addr bytes.length (s.storeBytes addr bytes)
  | .hardReset => .next (hardReset s)

/-- `STATUS.FAULT <- 1`, sticky (R36, R450). -/
def setFault (s : State) : State := { s with status := { s.status with fault := true } }

/-- A register write while BUSY is 1: a write to DESC0 to DESC3 is ignored and sets FAULT (R38, R450). -/
def regWriteBusy (offset : Nat) (s : State) : State :=
  if offset = 0x20 ∨ offset = 0x24 ∨ offset = 0x28 ∨ offset = 0x2C then setFault s else s

/-- The contents of DMEM after a DMEM write while BUSY is 1, at draw number `n`: "an unspecified effect" (R450; log 7). -/
def spoiltDmem (p : Params) (n : Nat) : Memory := Memory.writeBytes [] 0 (drawBytes (Config.spoiltByte n) p.dmemSize)

/-- A move that the host makes while BUSY is 1 (R450; log 7). An access to DMEM sets FAULT: a read returns unspecified
bytes, a write leaves unspecified bytes. -/
def earlyMove (m : HostMove) (s : State) : Host.Outcome State Fault Refusal :=
  match m with
  | .readReg width offset => regAccess width offset (reply (.reg (regRead s offset)) s)
  | .writeReg width offset _ => regAccess width offset (regWriteBusy offset s)
  | .readDmem addr n =>
    dmemAccess s addr n
      (reply (.dmem (drawBytes (Config.busyReadByte s.draws) n)) (setFault { s with draws := s.draws + 1 }))
  | .writeDmem addr bytes =>
    dmemAccess s addr bytes.length
      (setFault { s with dmem := spoiltDmem s.cfg s.draws, draws := s.draws + 1 })
  | .hardReset => .next (hardReset s)

/-- A move of the host in the fault state, FAULT = 1: there is no step but hardware reset (R450, U1; log 7). -/
def stuckMove (m : HostMove) (s : State) : Host.Outcome State Fault Refusal :=
  match m with
  | .hardReset => .next (hardReset s)
  | .readReg _ _ | .writeReg _ _ _ | .readDmem _ _ | .writeDmem _ _ => .fault .protocolBroken

end Sys2Proof.Machine
end

