-- ==== Sys2Proof/Machine/Aes.lean ====
section
/-! DEFINITION. The AES forward cipher (spec/40_prim_aes.md R140 to R146). -/

namespace Sys2Proof.Machine

/-- The substitution table, row = high nibble, column = low nibble (R142). -/
def sboxRows : List (List Byte) :=
  [ [0x63, 0x7c, 0x77, 0x7b, 0xf2, 0x6b, 0x6f, 0xc5, 0x30, 0x01, 0x67, 0x2b, 0xfe, 0xd7, 0xab, 0x76],
    [0xca, 0x82, 0xc9, 0x7d, 0xfa, 0x59, 0x47, 0xf0, 0xad, 0xd4, 0xa2, 0xaf, 0x9c, 0xa4, 0x72, 0xc0],
    [0xb7, 0xfd, 0x93, 0x26, 0x36, 0x3f, 0xf7, 0xcc, 0x34, 0xa5, 0xe5, 0xf1, 0x71, 0xd8, 0x31, 0x15],
    [0x04, 0xc7, 0x23, 0xc3, 0x18, 0x96, 0x05, 0x9a, 0x07, 0x12, 0x80, 0xe2, 0xeb, 0x27, 0xb2, 0x75],
    [0x09, 0x83, 0x2c, 0x1a, 0x1b, 0x6e, 0x5a, 0xa0, 0x52, 0x3b, 0xd6, 0xb3, 0x29, 0xe3, 0x2f, 0x84],
    [0x53, 0xd1, 0x00, 0xed, 0x20, 0xfc, 0xb1, 0x5b, 0x6a, 0xcb, 0xbe, 0x39, 0x4a, 0x4c, 0x58, 0xcf],
    [0xd0, 0xef, 0xaa, 0xfb, 0x43, 0x4d, 0x33, 0x85, 0x45, 0xf9, 0x02, 0x7f, 0x50, 0x3c, 0x9f, 0xa8],
    [0x51, 0xa3, 0x40, 0x8f, 0x92, 0x9d, 0x38, 0xf5, 0xbc, 0xb6, 0xda, 0x21, 0x10, 0xff, 0xf3, 0xd2],
    [0xcd, 0x0c, 0x13, 0xec, 0x5f, 0x97, 0x44, 0x17, 0xc4, 0xa7, 0x7e, 0x3d, 0x64, 0x5d, 0x19, 0x73],
    [0x60, 0x81, 0x4f, 0xdc, 0x22, 0x2a, 0x90, 0x88, 0x46, 0xee, 0xb8, 0x14, 0xde, 0x5e, 0x0b, 0xdb],
    [0xe0, 0x32, 0x3a, 0x0a, 0x49, 0x06, 0x24, 0x5c, 0xc2, 0xd3, 0xac, 0x62, 0x91, 0x95, 0xe4, 0x79],
    [0xe7, 0xc8, 0x37, 0x6d, 0x8d, 0xd5, 0x4e, 0xa9, 0x6c, 0x56, 0xf4, 0xea, 0x65, 0x7a, 0xae, 0x08],
    [0xba, 0x78, 0x25, 0x2e, 0x1c, 0xa6, 0xb4, 0xc6, 0xe8, 0xdd, 0x74, 0x1f, 0x4b, 0xbd, 0x8b, 0x8a],
    [0x70, 0x3e, 0xb5, 0x66, 0x48, 0x03, 0xf6, 0x0e, 0x61, 0x35, 0x57, 0xb9, 0x86, 0xc1, 0x1d, 0x9e],
    [0xe1, 0xf8, 0x98, 0x11, 0x69, 0xd9, 0x8e, 0x94, 0x9b, 0x1e, 0x87, 0xe9, 0xce, 0x55, 0x28, 0xdf],
    [0x8c, 0xa1, 0x89, 0x0d, 0xbf, 0xe6, 0x42, 0x68, 0x41, 0x99, 0x2d, 0x0f, 0xb0, 0x54, 0xbb, 0x16] ]

/-- `SBOX[b]` (R142). -/
def sbox (b : Byte) : Byte := (sboxRows.getD (b.toNat / 16) []).getD (b.toNat % 16) 0

/-- `xtime(b)` (R141). -/
def xtime (b : Byte) : Byte := if b.getLsbD 7 then (b <<< 1) ^^^ 0x1b else b <<< 1

/-- The loop of `mul(a, b)`: `n` bits of `a` are left, lowest first; `z` is the sum so far. -/
def aesMulLoop : Nat → Byte → Byte → Byte → Byte
  | 0, _, _, z => z
  | n + 1, a, b, z => aesMulLoop n (a >>> 1) (xtime b) (if a.getLsbD 0 then z ^^^ b else z)

/-- `mul(a, b)` modulo x^8 + x^4 + x^3 + x + 1 (R141). -/
def aesMul (a b : Byte) : Byte := aesMulLoop 8 a b 0

/-- `SubBytes` (R143). -/
def subBytes (s : Bytes) : Bytes := s.map sbox

/-- Byte (row r, column c) of the state array, `s[r + 4c]` (R141). -/
def aesAt (s : Bytes) (r c : Nat) : Byte := s.getD (r + 4 * c) 0

/-- `ShiftRows`: `s'[r][c] = s[r][(c + r) mod 4]` (R143). -/
def shiftRows (s : Bytes) : Bytes := (List.range 16).map fun i => aesAt s (i % 4) ((i / 4 + i % 4) % 4)

/-- One column of `MixColumns` (R143). -/
def mixColumn (a0 a1 a2 a3 : Byte) : Bytes :=
  [ aesMul 2 a0 ^^^ aesMul 3 a1 ^^^ a2 ^^^ a3,
    a0 ^^^ aesMul 2 a1 ^^^ aesMul 3 a2 ^^^ a3,
    a0 ^^^ a1 ^^^ aesMul 2 a2 ^^^ aesMul 3 a3,
    aesMul 3 a0 ^^^ a1 ^^^ a2 ^^^ aesMul 2 a3 ]

/-- `MixColumns` (R143). -/
def mixColumns (s : Bytes) : Bytes :=
  (List.range 4).flatMap fun c => mixColumn (aesAt s 0 c) (aesAt s 1 c) (aesAt s 2 c) (aesAt s 3 c)

/-- `RCON[j]` = x^(j-1) modulo m(x) (R145). -/
def rcon (j : Nat) : Byte := [0x01, 0x02, 0x04, 0x08, 0x10, 0x20, 0x40, 0x80, 0x1b, 0x36].getD (j - 1) 0

/-- `RotWord` (R145). -/
def rotWord (w : Bytes) : Bytes := w.drop 1 ++ w.take 1

/-- The word XORed onto `w[i - Nk]` to give `w[i]`, from `t = w[i-1]` (R145). -/
def scheduleWord (nk i : Nat) (t : Bytes) : Bytes :=
  if i % nk = 0 then xorBytes (subBytes (rotWord t)) [rcon (i / nk), 0, 0, 0]
  else if nk = 8 ∧ i % nk = 4 then subBytes t
  else t

/-- The loop of the key expansion: `n` words are left, `i` is the next index, `ws` holds the words so far, latest
first (R145). -/
def expandLoop (nk : Nat) : Nat → Nat → List Bytes → List Bytes
  | 0, _, ws => ws
  | n + 1, i, ws => expandLoop nk n (i + 1) (xorBytes (ws.getD (nk - 1) []) (scheduleWord nk i (ws.getD 0 [])) :: ws)

/-- The key schedule `w[0 .. 4 Nr + 3]`, a function of the key alone (R145). -/
def keyExpansion (key : Bytes) : List Bytes :=
  let nk := key.length / 4
  (expandLoop nk (4 * (nk + 7) - nk) nk (chunks 4 key).reverse).reverse

/-- The number of rounds `Nr = Nk + 6` (R144). -/
def aesRounds (key : Bytes) : Nat := key.length / 4 + 6

/-- `AddRoundKey(j)` (R143). -/
def addRoundKey (w : List Bytes) (j : Nat) (s : Bytes) : Bytes := xorBytes s ((w.drop (4 * j)).take 4).flatten

/-- One of the rounds 1 to Nr-1 (R146). -/
def aesRound (w : List Bytes) (s : Bytes) (j : Nat) : Bytes :=
  addRoundKey w j (mixColumns (shiftRows (subBytes s)))

/-- `AES_K(in)` (R146), on bytes. -/
def aesBytes (key : Bytes) (input : Bytes) : Bytes :=
  let w := keyExpansion key
  let nr := aesRounds key
  let s := (List.range' 1 (nr - 1)).foldl (aesRound w) (addRoundKey w 0 input)
  addRoundKey w nr (shiftRows (subBytes s))

/-- `AES_K(B)` (R146), on blocks. -/
def aes (key : Bytes) (b : Block) : Block := blockOfBytes (aesBytes key (blockBytes b))

end Sys2Proof.Machine
end

