-- ==== Sys2Proof/Machine/Ctr.lean ====
section
/-! DEFINITION. Unit CTR (spec/43_ctr.md R210 to R216) and the counter-mode loop, which unit GCM uses on its own key and
counter (R241). -/

namespace Sys2Proof.Machine

/-- `inc128` on a counter block, whose first byte is the most significant (R211). -/
def inc128 (c : Block) : Block := c + 1

/-- The loop of R213 over the 16-byte pieces of the input: the output and the counter afterwards. -/
def ctrLoop (key : Bytes) : List Bytes → Block → Bytes × Block
  | [], c => ([], c)
  | blk :: rest, c =>
    let r := ctrLoop key rest (inc128 c)
    (xorBytes blk (blockBytes (aes key c)) ++ r.1, r.2)

/-- The loop of R213 on a byte string. -/
def ctrStream (key : Bytes) (c : Block) (input : Bytes) : Bytes × Block := ctrLoop key (chunks 16 input) c

/-- The checks of CTR.INIT (R212). -/
def ctrInitCheck (kc len : Word) (s : State) : Option Cause :=
  if !inRange s.cfg kc.toNat len.toNat then some .srcRange
  else if !containerFits (operand s kc len) then some .containerLen
  else if !aesKeyLegal (parseContainer (operand s kc len)).key then some .keyLen
  else if (parseContainer (operand s kc len)).nonce.length ≠ 16 then some .nonceLen
  else if (parseContainer (operand s kc len)).info.length ≠ 0 then some .infoLen
  else none

/-- Unit CTR keyed from a container (R212). -/
def CtrUnit.init (u : CtrUnit) (kc : KeyContainer) : CtrUnit :=
  { u.zeroize with key := kc.key, c := blockOfBytes kc.nonce, phase := .ready }

/-- CTR.INIT (R212). -/
def execCtrInit (kc len : Word) (s : State) : Host.Outcome State Fault Refusal :=
  command .ctr (ctrInitCheck kc len s)
    (finish 0 { s with ctr := s.ctr.init (parseContainer (operand s kc len)) }) s

/-- The checks of CTR.XFORM (R213). -/
def ctrXformCheck (src dst len : Word) (s : State) : Option Cause :=
  if s.ctr.phase ≠ .ready then some .notInitialized else xformRangeCheck src dst len s

/-- The effect of CTR.XFORM (R213). -/
def ctrXformEffect (src dst len : Word) (s : State) : State :=
  let r := ctrStream s.ctr.key s.ctr.c (operand s src len)
  finish 0 ({ s with ctr := { s.ctr with c := r.2 } }.storeBytes dst.toNat r.1)

/-- CTR.XFORM (R213). -/
def execCtrXform (src dst len : Word) (s : State) : Host.Outcome State Fault Refusal :=
  command .ctr (ctrXformCheck src dst len s) (ctrXformEffect src dst len s) s

/-- CTR.DESTROY (R216). -/
def execCtrDestroy (s : State) : Host.Outcome State Fault Refusal :=
  command .ctr none (finish 0 { s with ctr := s.ctr.zeroize }) s

end Sys2Proof.Machine
end

