-- ==== Sys2Proof/Machine/Blake.lean ====
section
/-! DEFINITION. BLAKE2b compression and the hash of a byte string (spec/41_prim_perm.md R165 to R172). -/

namespace Sys2Proof.Machine

/-- A chain vector `H[0..7]`. -/
abbrev Chain := Vector Word64 8

/-- The initialization vector (R166). -/
def b2IV : Chain :=
  #v[0x6a09e667f3bcc908, 0xbb67ae8584caa73b, 0x3c6ef372fe94f82b, 0xa54ff53a5f1d36f1,
     0x510e527fade682d1, 0x9b05688c2b3e6c1f, 0x1f83d9abfb41bd6b, 0x5be0cd19137e2179]

/-- The message schedule, rows 0 to 9 (R167). -/
def b2Sigma : List (List Nat) :=
  [ [0, 1, 2, 3, 4, 5, 6, 7, 8, 9, 10, 11, 12, 13, 14, 15],
    [14, 10, 4, 8, 9, 15, 13, 6, 1, 12, 0, 2, 11, 7, 5, 3],
    [11, 8, 12, 0, 5, 2, 15, 13, 10, 14, 3, 6, 7, 1, 9, 4],
    [7, 9, 3, 1, 13, 12, 11, 14, 2, 6, 5, 10, 4, 0, 15, 8],
    [9, 0, 5, 7, 2, 4, 10, 15, 14, 1, 11, 12, 6, 8, 3, 13],
    [2, 12, 6, 10, 0, 11, 8, 3, 4, 13, 7, 5, 15, 14, 1, 9],
    [12, 5, 1, 15, 14, 13, 4, 10, 0, 7, 6, 3, 9, 2, 8, 11],
    [13, 11, 7, 14, 12, 1, 3, 9, 5, 0, 15, 4, 8, 6, 2, 10],
    [6, 15, 14, 9, 11, 3, 0, 8, 12, 2, 13, 7, 1, 4, 10, 5],
    [10, 2, 8, 4, 7, 6, 1, 5, 15, 11, 9, 14, 3, 12, 13, 0] ]

/-- The working vector of the compression. -/
abbrev B2Work := Vector Word64 16

/-- `G(v, a, b, c, d, x, y)` (R168). -/
def b2G (v : B2Work) (a b c d : Fin 16) (x y : Word64) : B2Work :=
  let va := v[a] + v[b] + x
  let vd := (v[d] ^^^ va).rotateRight 32
  let vc := v[c] + vd
  let vb := (v[b] ^^^ vc).rotateRight 24
  let va' := va + vb + y
  let vd' := (vd ^^^ va').rotateRight 16
  let vc' := vc + vd'
  let vb' := (vb ^^^ vc').rotateRight 63
  (((v.set a va').set b vb').set c vc').set d vd'

/-- The eight calls of G in a round: the indices into v and the position of the first of the two message words in the
schedule row (R170). -/
def b2Calls : List (Fin 16 × Fin 16 × Fin 16 × Fin 16 × Nat) :=
  [ (0, 4, 8, 12, 0), (1, 5, 9, 13, 2), (2, 6, 10, 14, 4), (3, 7, 11, 15, 6),
    (0, 5, 10, 15, 8), (1, 6, 11, 12, 10), (2, 7, 8, 13, 12), (3, 4, 9, 14, 14) ]

/-- One round of the compression with schedule row `s` (R170). -/
def b2Round (m : List Word64) (v : B2Work) (s : List Nat) : B2Work :=
  b2Calls.foldl
    (fun v i =>
      let (a, b, c, d, k) := i
      b2G v a b c d (m.getD (s.getD k 0) 0) (m.getD (s.getD (k + 1) 0) 0)) v

/-- The twelve schedule rows: rounds 10 and 11 use rows 0 and 1 again (R167). -/
def b2Rows : List (List Nat) := b2Sigma ++ b2Sigma.take 2

/-- `B2F(h, m, t, f0, f1)` (R170). -/
def b2F (h : Chain) (m : List Word64) (t : BitVec 128) (f0 f1 : Word64) : Chain :=
  let v : B2Work :=
    #v[h[0], h[1], h[2], h[3], h[4], h[5], h[6], h[7], b2IV[0], b2IV[1], b2IV[2], b2IV[3],
       b2IV[4] ^^^ t.extractLsb' 0 64, b2IV[5] ^^^ t.extractLsb' 64 64, b2IV[6] ^^^ f0, b2IV[7] ^^^ f1]
  let w := b2Rows.foldl (b2Round m) v
  Vector.ofFn fun i : Fin 8 => h[i] ^^^ w[i.val] ^^^ w[i.val + 8]

/-- The sixteen message words of a 128-byte block (R165). -/
def b2Words (b : Bytes) : List Word64 := (chunks 8 b).map le64

/-- `B2Init(pb)` (R171). -/
def b2Init (pb : Bytes) : Chain := Vector.ofFn fun i : Fin 8 => b2IV[i] ^^^ le64 (slice pb (8 * i) (8 * i + 8))

/-- `ff..ff` or 0: a finalization flag word (R169). -/
def flagWord (b : Bool) : Word64 := if b then BitVec.allOnes 64 else 0

/-- The loop of `B2Hash` over the blocks of the data: the last one carries the last-block flag, is padded, and its pad
bytes are not counted (R172). -/
def b2Blocks (f1 : Word64) : List Bytes → Chain → BitVec 128 → Chain
  | [], h, _ => h
  | [b], h, t => b2F h (b2Words (padTo 128 b)) (t + BitVec.ofNat 128 b.length) (flagWord true) f1
  | b :: bs, h, t => b2Blocks f1 bs (b2F h (b2Words b) (t + 128) 0 0) (t + 128)

/-- The 64 bytes of a chain vector (R172). -/
def chainBytes (h : Chain) : Bytes := h.toList.flatMap fun w => leBytes 8 w.toNat

/-- `B2Hash(pb, key, msg, last_node)` (R172). -/
def b2Hash (pb key msg : Bytes) (lastNode : Bool) : Bytes :=
  let data := if key.isEmpty then msg else padTo 128 key ++ msg
  let blocks := if data.isEmpty then [[]] else chunks 128 data
  chainBytes (b2Blocks (flagWord lastNode) blocks (b2Init pb) 0)

end Sys2Proof.Machine
end

