-- ==== Sys2Proof/Machine/Keccak.lean ====
section
/-! DEFINITION. Keccak-f[1600] and the Keccak-512 sponge of the original submission (spec/41_prim_perm.md R175 to
R181), in plain lanes (R300, C2). -/

namespace Sys2Proof.Machine

/-- The 25 lanes; lane (x, y) has index `x + 5y` (R175). -/
abbrev Lanes := Vector Word64 25

/-- Lane (x, y), index arithmetic mod 5 (R175, R178). -/
def lane (a : Lanes) (x y : Nat) : Word64 := a.toList.getD (x % 5 + 5 * (y % 5)) 0

/-- The state with `f x y` at lane (x, y). -/
def lanesOf (f : Nat → Nat → Word64) : Lanes := Vector.ofFn fun i : Fin 25 => f (i.val % 5) (i.val / 5)

/-- Rotation offsets by lane index (R176). -/
def keccakRot : List Nat :=
  [0, 1, 62, 28, 27, 36, 44, 6, 55, 20, 3, 10, 43, 25, 39, 41, 45, 15, 21, 8, 18, 2, 61, 56, 14]

/-- Round constants (R177). -/
def keccakRC : List Word64 :=
  [ 0x0000000000000001, 0x0000000000008082, 0x800000000000808a, 0x8000000080008000, 0x000000000000808b,
    0x0000000080000001, 0x8000000080008081, 0x8000000000008009, 0x000000000000008a, 0x0000000000000088,
    0x0000000080008009, 0x000000008000000a, 0x000000008000808b, 0x800000000000008b, 0x8000000000008089,
    0x8000000000008003, 0x8000000000008002, 0x8000000000000080, 0x000000000000800a, 0x800000008000000a,
    0x8000000080008081, 0x8000000000008080, 0x0000000080000001, 0x8000000080008008 ]

/-- `C[x]` of theta (R178). -/
def thetaC (a : Lanes) (x : Nat) : Word64 := lane a x 0 ^^^ lane a x 1 ^^^ lane a x 2 ^^^ lane a x 3 ^^^ lane a x 4

/-- `D[x]` of theta; `x - 1` is `x + 4` mod 5 (R178). -/
def thetaD (a : Lanes) (x : Nat) : Word64 := thetaC a (x + 4) ^^^ (thetaC a (x + 1)).rotateLeft 1

/-- theta (R178). -/
def theta (a : Lanes) : Lanes := lanesOf fun x y => lane a x y ^^^ thetaD a x

/-- rho and pi: `B[y, 2x+3y] = rotl64(A[x,y], ROT[x+5y])` (R178). Position (X, Y) takes the lane with y = X and
x = X + 3Y mod 5, the one solution of 2x + 3X = Y. -/
def rhoPi (a : Lanes) : Lanes :=
  lanesOf fun X Y => (lane a (X + 3 * Y) X).rotateLeft (keccakRot.getD ((X + 3 * Y) % 5 + 5 * X) 0)

/-- chi (R178). -/
def chi (b : Lanes) : Lanes := lanesOf fun x y => lane b x y ^^^ (~~~(lane b (x + 1) y) &&& lane b (x + 2) y)

/-- iota (R178). -/
def iota (a : Lanes) (rc : Word64) : Lanes := a.set 0 (a[0] ^^^ rc)

/-- `KeccakF(A)` (R178). -/
def keccakF (a : Lanes) : Lanes := keccakRC.foldl (fun a rc => iota (chi (rhoPi (theta a))) rc) a

/-- The all-zero state (R181). -/
def lanesZero : Lanes := Vector.replicate 25 0

/-- `Keccak512Absorb(A, b)` for a 72-byte block (R180). -/
def keccakAbsorb (a : Lanes) (b : Bytes) : Lanes :=
  keccakF (Vector.ofFn fun i : Fin 25 =>
    if i.val < 9 then a[i] ^^^ le64 (slice b (8 * i.val) (8 * i.val + 8)) else a[i])

/-- The last block: `rem || 01 || 00..`, with 80 ORed into byte 71 (R179, R181). -/
def keccakPad (rem : Bytes) : Bytes :=
  let p := padTo 72 (rem ++ [0x01])
  p.set 71 (p.getD 71 0 ||| 0x80)

/-- `Keccak512Digest(A, rem)` (R181). -/
def keccakDigest (a : Lanes) (rem : Bytes) : Bytes :=
  ((keccakAbsorb a (keccakPad rem)).toList.take 8).flatMap fun w => leBytes 8 w.toNat

/-- Absorb every full 72-byte block of the string, in order. -/
def keccakAbsorbAll (a : Lanes) (msg : Bytes) : Lanes :=
  ((chunks 72 msg).filter (·.length == 72)).foldl keccakAbsorb a

/-- The bytes after the last full 72-byte block. -/
def keccakRest (msg : Bytes) : Bytes := msg.drop (72 * (msg.length / 72))

/-- `Keccak512(msg)` (R181). -/
def keccak512 (msg : Bytes) : Bytes := keccakDigest (keccakAbsorbAll lanesZero msg) (keccakRest msg)

end Sys2Proof.Machine
end

