-- ==== Sys2Proof/Machine/Dg.lean ====
section
/-! DEFINITION. Unit DG, the tree hash (spec/45_treehash.md R280 to R298), and the digest as a function of the message
(R287). -/

namespace Sys2Proof.Machine

/-- The block size `bs` (R280). -/
def dgBs : HashAlg → Nat
  | .blake2b => 128
  | .keccak => 72

/-- `dg.P` is the fanout (R54). -/
def DgUnit.P (u : DgUnit) : Nat := u.prm.fanout.toNat

/-- `W = P * bs` (R280). -/
def DgUnit.W (u : DgUnit) : Nat := u.P * dgBs u.alg

/-! ### Parameter blocks -/

/-- `PB(prm, off, dep)`: 19 bytes (R286). -/
def dgPB (prm : DgPrm) (off dep : Nat) : Bytes :=
  [prm.digestLen, prm.keyLen, prm.fanout, prm.depth] ++ leBytes 4 prm.leafLen.toNat ++ leBytes 8 off ++
    [BitVec.ofNat 8 dep, prm.innerLen, prm.threadCount]

/-- `PB64(prm, off, dep)` (R286). -/
def dgPB64 (prm : DgPrm) (off dep : Nat) : Bytes := dgPB prm off dep ++ zeros 45

/-- `PB72(prm, off, dep)` (R286). -/
def dgPB72 (prm : DgPrm) (off dep : Nat) : Bytes := dgPB prm off dep ++ zeros 53

/-! ### The digest as a function of the message -/

/-- `LeafMsg(m, i)`: the blocks j of `m` with `j mod P = i` (R282). -/
def leafMsg (bs p : Nat) (m : Bytes) (i : Nat) : Bytes :=
  ((chunks bs m).zipIdx.filter fun b => b.2 % p == i).flatMap fun b => b.1

/-- The digest `D_i` of leaf `i` of a tree (R287). -/
def leafDigest (alg : HashAlg) (prm : DgPrm) (key m : Bytes) (i : Nat) : Bytes :=
  let p := prm.fanout.toNat
  match alg with
  | .blake2b => b2Hash (dgPB64 prm i 0) key (leafMsg 128 p m i) (i + 1 == p)
  | .keccak => keccak512 (dgPB72 prm i 0 ++ leafMsg 72 p m i)

/-- `DgDigest(alg, prm, key, m)` (R287). -/
def dgDigest (alg : HashAlg) (prm : DgPrm) (key m : Bytes) : Bytes :=
  let p := prm.fanout.toNat
  let ds := (List.range p).flatMap (leafDigest alg prm key m)
  match alg with
  | .blake2b => if p = 1 then b2Hash (dgPB64 prm 0 0) key m false else b2Hash (dgPB64 prm 0 1) [] ds true
  | .keccak => if p = 1 then keccak512 m else keccak512 (dgPB72 prm 0 1 ++ ds)

/-! ### The streaming commands -/

/-- Leaf `i` at the start of a message (R289). -/
def leafStart (alg : HashAlg) (prm : DgPrm) (i : Nat) : Leaf :=
  match alg with
  | .blake2b => { Leaf.zero with h := b2Init (dgPB64 prm i 0) }
  | .keccak =>
    { Leaf.zero with A := if 1 < prm.fanout.toNat then keccakAbsorb lanesZero (dgPB72 prm i 0) else lanesZero }

/-- `DgStart()` (R289). -/
def DgUnit.start (u : DgUnit) : DgUnit :=
  { u with buf := [], leaves := (List.range u.P).map (leafStart u.alg u.prm) }

/-- The key block of BLAKE2b as message words (R290). -/
def keyWords (key : Bytes) : List Word64 := b2Words (padTo 128 key)

/-- The leaf has still to take its key block before anything else (R290, "the key block goes first"). -/
def keyPending (prm : DgPrm) (l : Leaf) : Bool := l.t == 0 && prm.keyLen != 0

/-- The key block, not the last of the leaf, when it is still to be taken (R290, R293). -/
def leafKey (prm : DgPrm) (key : Bytes) (l : Leaf) : Leaf :=
  if keyPending prm l then { l with t := 128, h := b2F l.h (keyWords key) 128 0 0 } else l

/-- `LeafAbsorb(i, b)`: the leaf takes one full block that is not its last (R290). -/
def leafAbsorb (alg : HashAlg) (prm : DgPrm) (key : Bytes) (l : Leaf) (b : Bytes) : Leaf :=
  match alg with
  | .blake2b =>
    let k := leafKey prm key l
    { k with t := k.t + 128, h := b2F k.h (b2Words b) (k.t + 128) 0 0 }
  | .keccak => { l with A := keccakAbsorb l.A b }

/-- One dispatch: leaf `i` takes block `i` of the first half, and the second half becomes the first (R291). -/
def DgUnit.dispatch (u : DgUnit) : DgUnit :=
  { u with
    leaves := u.leaves.mapIdx fun i l =>
      leafAbsorb u.alg u.prm u.key l (slice u.buf (i * dgBs u.alg) ((i + 1) * dgBs u.alg))
    buf := u.buf.drop u.W }

/-- The loop of R291. `fuel` bounds its rounds: each takes at least one byte. -/
def DgUnit.feed : Nat → DgUnit → Bytes → DgUnit
  | 0, u, _ => u
  | fuel + 1, u, data =>
    if data.isEmpty then u
    else
      let v := if u.buf.length = 2 * u.W then u.dispatch else u
      let k := min data.length (2 * u.W - v.buf.length)
      DgUnit.feed fuel { v with buf := v.buf ++ data.take k } (data.drop k)

/-- DG.UPDATE's effect on the unit (R291). -/
def DgUnit.update (u : DgUnit) (data : Bytes) : DgUnit := u.feed data.length data

/-- `r_i`: what leaf `i` still has in the buffer (R292). -/
def DgUnit.rest (u : DgUnit) (i : Nat) : Bytes :=
  let n := u.buf.length
  let bs := dgBs u.alg
  slice u.buf (min (i * bs) n) (min ((i + 1) * bs) n) ++
    slice u.buf (min (u.W + i * bs) n) (min (u.W + (i + 1) * bs) n)

/-- The BLAKE2b part of `LeafFinish(i, r)`; `lastNode` is the last-node flag (R293). -/
def leafFinishB2 (prm : DgPrm) (key : Bytes) (l : Leaf) (r : Bytes) (lastNode : Bool) : Bytes :=
  let l1 := if 128 < r.length then leafAbsorb .blake2b prm key l (r.take 128) else l
  let r1 := if 128 < r.length then r.drop 128 else r
  if keyPending prm l1 && r1.isEmpty then
    chainBytes (b2F l1.h (keyWords key) 128 (flagWord true) (flagWord lastNode))
  else
    let l2 := leafKey prm key l1
    chainBytes (b2F l2.h (b2Words (padTo 128 r1)) (l2.t + BitVec.ofNat 128 r1.length) (flagWord true)
      (flagWord lastNode))

/-- The Keccak part of `LeafFinish(i, r)`: every full block of `r`, then the padded rest (R293). -/
def leafFinishKeccak (l : Leaf) (r : Bytes) : Bytes := keccakDigest (keccakAbsorbAll l.A r) (keccakRest r)

/-- `LeafFinish(i, r)` (R293): the last-node flag is set only in a tree and only for the last leaf. -/
def DgUnit.leafFinish (u : DgUnit) (i : Nat) (l : Leaf) : Bytes :=
  match u.alg with
  | .blake2b => leafFinishB2 u.prm u.key l (u.rest i) (1 < u.P && i + 1 == u.P)
  | .keccak => leafFinishKeccak l (u.rest i)

/-- The compressions of `Root` for BLAKE2b: `n` blocks are left (R294). -/
def rootLoop : Nat → Bytes → Chain → BitVec 128 → Chain
  | 0, _, h, _ => h
  | n + 1, c, h, t =>
    let last := n == 0
    rootLoop n (c.drop 128) (b2F h (b2Words (c.take 128)) (t + 128) (flagWord last) (flagWord last)) (t + 128)

/-- `Root(c)` (R294). -/
def dgRoot (alg : HashAlg) (prm : DgPrm) (c : Bytes) : Bytes :=
  match alg with
  | .blake2b => chainBytes (rootLoop (prm.fanout.toNat / 2) c (b2Init (dgPB64 prm 0 1)) 0)
  | .keccak => keccak512 (dgPB72 prm 0 1 ++ c)

/-- The digest that DG.FINAL writes: `D_0` of the one leaf, or the root of all (R292). -/
def DgUnit.digest (u : DgUnit) : Bytes :=
  let ds := u.leaves.mapIdx u.leafFinish
  if u.P = 1 then ds.headD [] else dgRoot u.alg u.prm ds.flatten

/-! ### The commands -/

/-- The range check of `fanout` (R284). -/
def fanoutLegal (p : Params) (fanout : Nat) : Bool :=
  fanout == 1 || (2 ≤ fanout && fanout % 2 == 0 && fanout ≤ p.nproc)

/-- The checks of DG.INIT on the record, after its length is known to be at least 19 (R284, R288). -/
def dgRecordCheck (p : Params) (alg : HashAlg) (n : Nat) (r : DgRecord) : Option Cause :=
  if r.digestLen ≠ 64 then some .dgDigestLen
  else if 64 < r.keyLen.toNat ∨ (alg = .keccak ∧ r.keyLen ≠ 0) then some .keyLen
  else if n ≠ 19 + r.keyLen.toNat then some .containerLen
  else if !fanoutLegal p r.fanout.toNat then some .parDegree
  else if r.leafLen ≠ 0 ∧ r.leafLen.toNat % dgBs alg ≠ 0 then some .dgLeafLen
  else if r.nodeOffset ≠ 0 ∨ r.nodeDepth ≠ 0 then some .dgNode
  else if alg = .keccak ∧ r.fanout = 1 ∧ (r.depth ≠ 1 ∨ r.leafLen ≠ 0 ∨ r.innerLen ≠ 0 ∨ r.threadCount ≠ 0) then
    some .dgSeqParams
  else none

/-- The checks of DG.INIT (R288). -/
def dgInitCheck (alg : HashAlg) (addr len : Word) (s : State) : Option Cause :=
  if !inRange s.cfg addr.toNat len.toNat then some .srcRange
  else if len.toNat < 19 then some .containerLen
  else dgRecordCheck s.cfg alg len.toNat (parseDgRecord (operand s addr len))

/-- The stored parameters of a record (R54). -/
def DgRecord.prm (r : DgRecord) : DgPrm :=
  { digestLen := r.digestLen, keyLen := r.keyLen, fanout := r.fanout, depth := r.depth, leafLen := r.leafLen,
    innerLen := r.innerLen, threadCount := r.threadCount }

/-- Unit DG initialized from a record (R288). -/
def DgUnit.init (alg : HashAlg) (r : DgRecord) : DgUnit :=
  { DgUnit.reset with alg := alg, prm := r.prm, key := r.key, phase := .ready }.start

/-- DG.INIT (R288). -/
def execDgInit (alg : HashAlg) (addr len : Word) (s : State) : Host.Outcome State Fault Refusal :=
  command .dg (dgInitCheck alg addr len s)
    (finish 0 { s with dg := DgUnit.init alg (parseDgRecord (operand s addr len)) }) s

/-- The checks of DG.UPDATE (R291). -/
def dgUpdateCheck (src len : Word) (s : State) : Option Cause :=
  if s.dg.phase ≠ .ready then some .notInitialized
  else if !inRange s.cfg src.toNat len.toNat then some .srcRange
  else none

/-- DG.UPDATE (R291). -/
def execDgUpdate (src len : Word) (s : State) : Host.Outcome State Fault Refusal :=
  command .dg (dgUpdateCheck src len s) (finish 0 { s with dg := s.dg.update (operand s src len) }) s

/-- The checks of DG.FINAL (R292). -/
def dgFinalCheck (dst : Word) (s : State) : Option Cause :=
  if s.dg.phase ≠ .ready then some .notInitialized
  else if !inRange s.cfg dst.toNat 64 then some .dstRange
  else none

/-- The finalization of R292: the digest of unit `u` to DMEM, and a new empty message. -/
def dgFinalize (u : DgUnit) (dst : Word) (s : State) : State :=
  finish 0 ({ s with dg := u.start }.storeBytes dst.toNat u.digest)

/-- DG.FINAL (R292). -/
def execDgFinal (dst : Word) (s : State) : Host.Outcome State Fault Refusal :=
  command .dg (dgFinalCheck dst s) (dgFinalize s.dg dst s) s

/-- DG.RESET (R296). -/
def execDgReset (s : State) : Host.Outcome State Fault Refusal :=
  command .dg (if s.dg.phase ≠ .ready then some .notInitialized else none)
    (finish 0 { s with dg := s.dg.start }) s

/-- The checks of DG.COMPUTE (R297). -/
def dgComputeCheck (src dst len : Word) (s : State) : Option Cause :=
  if s.dg.phase ≠ .ready then some .notInitialized
  else if !inRange s.cfg src.toNat len.toNat then some .srcRange
  else if !inRange s.cfg dst.toNat 64 then some .dstRange
  else none

/-- DG.COMPUTE (R297): the loop of R291, then the finalization of R292. -/
def execDgCompute (src dst len : Word) (s : State) : Host.Outcome State Fault Refusal :=
  command .dg (dgComputeCheck src dst len s) (dgFinalize (s.dg.update (operand s src len)) dst s) s

/-- DG.DESTROY (R298). -/
def execDgDestroy (s : State) : Host.Outcome State Fault Refusal :=
  command .dg none (finish 0 { s with dg := DgUnit.reset }) s

end Sys2Proof.Machine
end

