-- ==== Sys2Proof/Machine/Drbg.lean ====
section
/-! DEFINITION. Unit DRBG (spec/47_entropy_drbg.md R360 to R368), over the open functions of R366. -/

namespace Sys2Proof.Machine

/-- `MinSeed(kind)` (R361). -/
def minSeed (p : Params) (kind : BitVec 2) : Nat :=
  if kind = 0 then 72 else if kind = 1 then 80 else p.drbgMinSeedCipher

/-- `DrbgRefill()` (R367). -/
def DrbgUnit.refill (u : DrbgUnit) (bufSize : Nat) : DrbgUnit :=
  { u with
    buf := drawBytes (Config.drbgGenByte u.kind u.gstate bufSize) bufSize
    gstate := Config.drbgGenState u.kind u.gstate bufSize
    idx := 0 }

/-- `DrbgFill()` (R367). -/
def DrbgUnit.fill (u : DrbgUnit) (bufSize : Nat) : DrbgUnit :=
  { u with gstate := Config.drbgSeed u.kind u.seed }.refill bufSize

/-- The checks of DRBG.INIT (R362). -/
def drbgInitCheck (kind : BitVec 2) (seed len : Word) (s : State) : Option Cause :=
  if kind = 3 then some .drbgKind
  else if !inRange s.cfg seed.toNat len.toNat then some .srcRange
  else if len.toNat < minSeed s.cfg kind then some .seedLen
  else none

/-- Unit DRBG initialized (R362). -/
def DrbgUnit.init (p : Params) (kind : BitVec 2) (seed : Bytes) : DrbgUnit :=
  { { DrbgUnit.reset p with kind := kind, seed := seed }.fill p.drbgBuf with phase := .ready }

/-- DRBG.INIT (R362). -/
def execDrbgInit (kind : BitVec 2) (seed len : Word) (s : State) : Host.Outcome State Fault Refusal :=
  command .drbg (drbgInitCheck kind seed len s)
    (finish 0 { s with drbg := DrbgUnit.init s.cfg kind (operand s seed len) }) s

/-- The loop of R363: `n` bytes are still to be delivered. `fuel` bounds its rounds: each delivers at least one. -/
def drbgLoop (bufSize : Nat) : Nat → Nat → DrbgUnit → Bytes × DrbgUnit
  | 0, _, u => ([], u)
  | fuel + 1, n, u =>
    if n = 0 then ([], u)
    else
      let v := if u.idx = bufSize then u.refill bufSize else u
      let k := min n (bufSize - v.idx)
      let r := drbgLoop bufSize fuel (n - k) { v with idx := v.idx + k }
      (slice v.buf v.idx (v.idx + k) ++ r.1, r.2)

/-- The bytes that DRBG.GEN delivers, and the unit afterwards (R363). -/
def DrbgUnit.generate (u : DrbgUnit) (bufSize n : Nat) : Bytes × DrbgUnit := drbgLoop bufSize n n u

/-- The checks of DRBG.GEN (R363). -/
def drbgGenCheck (dst len : Word) (s : State) : Option Cause :=
  if s.drbg.phase ≠ .ready then some .notInitialized
  else if !inRange s.cfg dst.toNat len.toNat then some .dstRange
  else none

/-- The effect of DRBG.GEN (R363). -/
def drbgGenEffect (dst len : Word) (s : State) : State :=
  let r := s.drbg.generate s.cfg.drbgBuf len.toNat
  finish 0 ({ s with drbg := r.2 }.storeBytes dst.toNat r.1)

/-- DRBG.GEN (R363). -/
def execDrbgGen (dst len : Word) (s : State) : Host.Outcome State Fault Refusal :=
  command .drbg (drbgGenCheck dst len s) (drbgGenEffect dst len s) s

/-- The checks of DRBG.RESET (R364). -/
def drbgResetCheck (s : State) : Option Cause :=
  if s.drbg.phase ≠ .ready then some .notInitialized
  else if !s.cfg.hasJent || !s.jent.available then some .jentUnavailable
  else none

/-- The effect of DRBG.RESET: `MinSeed(kind)` draws of unit JENT become the seed (R364). Unit JENT is unchanged
(R42, R352; log 10). -/
def drbgResetEffect (s : State) : State :=
  let n := minSeed s.cfg s.drbg.kind
  finish 0 { s with drbg := { s.drbg with seed := jentBytes s n }.fill s.cfg.drbgBuf, draws := s.draws + n }

/-- DRBG.RESET (R364). -/
def execDrbgReset (s : State) : Host.Outcome State Fault Refusal :=
  command .drbg (drbgResetCheck s) (drbgResetEffect s) s

/-- DRBG.DESTROY (R365). -/
def execDrbgDestroy (s : State) : Host.Outcome State Fault Refusal :=
  command .drbg none (finish 0 { s with drbg := DrbgUnit.reset s.cfg }) s

end Sys2Proof.Machine
end

