-- ==== Sys2Proof/Machine/Galois.lean ====
section
/-! DEFINITION. Multiplication in GF(2^128) (spec/40_prim_aes.md R149, R150) and the two GHASH functions
(spec/42_ghash.md R191, R192), which units GH and GCM share. -/

namespace Sys2Proof.Machine

/-- The constant R of R150: e1 followed by fifteen zero bytes. -/
def gfR : Block := 0xe1000000000000000000000000000000#128

/-- One step of V in the loop of R150; bit 127 of a block is its least significant bit (R149). -/
def gfShift (v : Block) : Block := if v.getLsbD 0 then (v >>> 1) ^^^ gfR else v >>> 1

/-- The loop of R150 with `n` bits of X left; the next one is bit `128 - n` of R149's numbering. -/
def gfmulLoop (x : Block) : Nat → Block → Block → Block
  | 0, z, _ => z
  | n + 1, z, v => gfmulLoop x n (if x.getLsbD n then z ^^^ v else z) (gfShift v)

/-- `gfmul(X, Y)` (R150). -/
def gfmul (x y : Block) : Block := gfmulLoop x 128 0 y

/-- `ghash_seg(H, X, s)` (R191). -/
def ghashSeg (h x : Block) (s : Bytes) : Block :=
  (chunks 16 (pad16 s)).foldl (fun x p => gfmul (x ^^^ blockOfBytes p) h) x

/-- The length block of R192: two 64-bit big-endian bit counts. -/
def lengthBlock (a m : Nat) : Block := BitVec.ofNat 64 (8 * a) ++ BitVec.ofNat 64 (8 * m)

/-- `ghash_fin(H, X, a, m)` for byte counts a and m (R192). -/
def ghashFin (h x : Block) (a m : Nat) : Block := gfmul (x ^^^ lengthBlock a m) h

end Sys2Proof.Machine
end

