-- ==== Sys2Proof/Machine/Gcm.lean ====
section
/-! DEFINITION. Unit GCM (spec/44_gcm.md R230 to R252). -/

namespace Sys2Proof.Machine

/-- `GuardHit(key, nonce)` (R233). -/
def GcmUnit.guardHit (u : GcmUnit) (key nonce : Bytes) : Bool :=
  u.guardValid && key == u.guardKey && nonce == u.guardN

/-- The initial counter block `J0(H, N)` (R236). -/
def gcmJ0 (h : Block) (nonce : Bytes) : Block :=
  if nonce.length = 12 then blockOfBytes (nonce ++ [0, 0, 0, 1])
  else ghashFin h (ghashSeg h 0 nonce) 0 nonce.length

/-- The hash subkey `H = E_K(0^128)` (R235). -/
def gcmSubkey (key : Bytes) : Block := aes key 0

/-- `GcmSetup(key, N)` (R235). -/
def GcmUnit.setup (u : GcmUnit) (key nonce : Bytes) : GcmUnit :=
  let h := gcmSubkey key
  let j0 := gcmJ0 h nonce
  { u with
    key := key, N := nonce, H := h, J0 := j0, c := inc128 j0, X := 0, aadSize := 0, msgSize := 0, tail := false
    guardKey := key, guardN := nonce, guardValid := true, phase := .ready }

/-- The checks of GCM.INIT (R238). -/
def gcmInitCheck (kc len : Word) (s : State) : Option Cause :=
  let k := parseContainer (operand s kc len)
  if !inRange s.cfg kc.toNat len.toNat then some .srcRange
  else if !containerFits (operand s kc len) then some .containerLen
  else if !aesKeyLegal k.key then some .keyLen
  else if k.nonce.length < 8 ∨ 16 < k.nonce.length then some .nonceLen
  else if k.info.length ≠ 0 then some .infoLen
  else if s.gcm.guardHit k.key k.nonce then some .nonceRepeat
  else none

/-- Unit GCM initialized (R238). -/
def GcmUnit.init (u : GcmUnit) (enc autoInc keepAd : Bool) (k : KeyContainer) : GcmUnit :=
  { u.zeroize with enc := enc, autoInc := autoInc, preserveAd := keepAd }.setup k.key k.nonce

/-- GCM.INIT (R238). -/
def execGcmInit (enc autoInc keepAd : Bool) (kc len : Word) (s : State) : Host.Outcome State Fault Refusal :=
  command .gcm (gcmInitCheck kc len s)
    (finish 0 { s with gcm := s.gcm.init enc autoInc keepAd (parseContainer (operand s kc len)) }) s

/-- The checks of GCM.AAD (R240). -/
def gcmAadCheck (src len : Word) (s : State) : Option Cause :=
  if s.gcm.phase = .uninit then some .notInitialized
  else if s.gcm.phase = .finalized then some .afterFinalize
  else if s.gcm.phase ≠ .ready then some .aadOrder
  else if s.gcm.preserveAd ∧ s.cfg.aadMax < len.toNat then some .aadTooLong
  else if !inRange s.cfg src.toNat len.toNat then some .srcRange
  else none

/-- Unit GCM after taking the associated data (R240). -/
def GcmUnit.absorbAad (u : GcmUnit) (data : Bytes) : GcmUnit :=
  { u with
    X := ghashSeg u.H u.X data
    aadSize := BitVec.ofNat 64 data.length
    aadStore := if u.preserveAd then data else u.aadStore
    aadKept := u.preserveAd || u.aadKept
    phase := .aadLoaded }

/-- GCM.AAD (R240). -/
def execGcmAad (src len : Word) (s : State) : Host.Outcome State Fault Refusal :=
  command .gcm (gcmAadCheck src len s) (finish 0 { s with gcm := s.gcm.absorbAad (operand s src len) }) s

/-- The checks of GCM.XFORM (R242). -/
def gcmXformCheck (src dst len : Word) (s : State) : Option Cause :=
  if s.gcm.phase = .uninit then some .notInitialized
  else if s.gcm.phase = .finalized then some .afterFinalize
  else if s.gcm.tail then some .afterTail
  else xformRangeCheck src dst len s

/-- Unit GCM after transforming `input`, and the output; the hash is over the ciphertext in both directions (R241,
R242). -/
def GcmUnit.xform (u : GcmUnit) (input : Bytes) : GcmUnit × Bytes :=
  let r := ctrStream u.key u.c input
  let cipher := if u.enc then r.1 else input
  ({ u with
     X := ghashSeg u.H u.X cipher
     c := r.2
     msgSize := u.msgSize + BitVec.ofNat 64 input.length
     tail := u.tail || input.length % 16 != 0
     phase := .transforming }, r.1)

/-- The effect of GCM.XFORM (R242). -/
def gcmXformEffect (src dst len : Word) (s : State) : State :=
  let r := s.gcm.xform (operand s src len)
  finish 0 ({ s with gcm := r.1 }.storeBytes dst.toNat r.2)

/-- GCM.XFORM (R242). -/
def execGcmXform (src dst len : Word) (s : State) : Host.Outcome State Fault Refusal :=
  command .gcm (gcmXformCheck src dst len s) (gcmXformEffect src dst len s) s

/-- `CalcTag()` (R246). -/
def GcmUnit.calcTag (u : GcmUnit) : GcmUnit :=
  let x := ghashFin u.H u.X u.aadSize.toNat u.msgSize.toNat
  { u with X := x, tag := aes u.key u.J0 ^^^ x, phase := .finalized }

/-- The nonce plus one as one big-endian number of its own length (R247). -/
def incNonce (nonce : Bytes) : Bytes := beBytes nonce.length (beNat nonce + 1)

/-- `AutoReinit()` (R247). -/
def GcmUnit.autoReinit (u : GcmUnit) : GcmUnit :=
  let v := u.setup u.key (incNonce u.N)
  if u.aadKept then
    { v with
      X := ghashSeg v.H v.X v.aadStore, aadSize := BitVec.ofNat 64 v.aadStore.length, phase := .aadLoaded }
  else v

/-- The nonce cannot be advanced: `auto_inc` is set, a tag is about to be computed, and every nonce byte is ff
(R248, NONCE_WRAP). -/
def GcmUnit.nonceWraps (u : GcmUnit) : Bool :=
  u.phase != .finalized && u.autoInc && u.N.all (· == 0xff)

/-- The tag step that GCM.FINAL and GCM.VERIFY share: the unit afterwards and the tag `T` (R248, R250). -/
def GcmUnit.takeTag (u : GcmUnit) : GcmUnit × Block :=
  if u.phase = .finalized then (u, u.tag)
  else
    let v := u.calcTag
    (if v.autoInc then v.autoReinit else v, v.tag)

/-- The checks of GCM.FINAL (R248). -/
def gcmFinalCheck (base offset : Word) (tagLen : Byte) (s : State) : Option Cause :=
  if s.gcm.phase = .uninit then some .notInitialized
  else if tagLen.toNat < 12 ∨ 16 < tagLen.toNat then some .tagLen
  else if !inRange s.cfg (tagAddress base offset) tagLen.toNat then some .dstRange
  else if s.gcm.nonceWraps then some .nonceWrap
  else none

/-- The effect of GCM.FINAL (R248). -/
def gcmFinalEffect (base offset : Word) (tagLen : Byte) (s : State) : State :=
  let r := s.gcm.takeTag
  finish 0 ({ s with gcm := r.1 }.storeBytes (tagAddress base offset) ((blockBytes r.2).take tagLen.toNat))

/-- GCM.FINAL (R248). -/
def execGcmFinal (base offset : Word) (tagLen : Byte) (s : State) : Host.Outcome State Fault Refusal :=
  command .gcm (gcmFinalCheck base offset tagLen s) (gcmFinalEffect base offset tagLen s) s

/-- `TagEqual(T, e, n)`: every byte is examined, the differences are or-ed together (R249). -/
def tagEqual (t e : Bytes) (n : Nat) : Bool := (xorBytes (t.take n) (e.take n)).foldl (· ||| ·) 0 == 0

/-- The checks of GCM.VERIFY (R250). -/
def gcmVerifyCheck (base offset : Word) (tagLen : Byte) (s : State) : Option Cause :=
  if s.gcm.phase = .uninit then some .notInitialized
  else if s.gcm.enc then some .verifyEncrypt
  else if tagLen.toNat < 12 ∨ 16 < tagLen.toNat then some .tagLen
  else if !inRange s.cfg (tagAddress base offset) tagLen.toNat then some .srcRange
  else if s.gcm.nonceWraps then some .nonceWrap
  else none

/-- The verdict of GCM.VERIFY: the tag against the bytes at the effective address (R250). -/
def gcmVerdict (base offset : Word) (tagLen : Byte) (s : State) : Bool :=
  tagEqual (blockBytes s.gcm.takeTag.2) (s.dmem.readBytes (tagAddress base offset) tagLen.toNat) tagLen.toNat

/-- The effect of GCM.VERIFY: VOK and RESULT hold the verdict (R250, R404). -/
def gcmVerifyEffect (base offset : Word) (tagLen : Byte) (s : State) : State :=
  let ok := gcmVerdict base offset tagLen s
  finishWith ok (if ok then 1 else 0) { s with gcm := s.gcm.takeTag.1 }

/-- GCM.VERIFY (R250). -/
def execGcmVerify (base offset : Word) (tagLen : Byte) (s : State) : Host.Outcome State Fault Refusal :=
  command .gcm (gcmVerifyCheck base offset tagLen s) (gcmVerifyEffect base offset tagLen s) s

/-- GCM.DESTROY (R252). -/
def execGcmDestroy (s : State) : Host.Outcome State Fault Refusal :=
  command .gcm none (finish 0 { s with gcm := s.gcm.zeroizeWithGuard }) s

end Sys2Proof.Machine
end

