-- ==== Sys2Proof/Machine/Gh.lean ====
section
/-! DEFINITION. Unit GH (spec/42_ghash.md R193 to R200). -/

namespace Sys2Proof.Machine

/-- GH.INIT (R194). -/
def execGhInit (addr : Word) (s : State) : Host.Outcome State Fault Refusal :=
  command .gh (if !inRange s.cfg addr.toNat 16 then some .srcRange else none)
    (finish 0 { s with gh := { H := blockOfBytes (s.dmem.readBytes addr.toNat 16), X := 0 } }) s

/-- The checks of GH.UPDATE (R195). -/
def ghUpdateCheck (src len : Word) (s : State) : Option Cause :=
  if len.toNat % 16 ≠ 0 then some .lengthAlign
  else if !inRange s.cfg src.toNat len.toNat then some .srcRange
  else none

/-- Unit GH after absorbing a byte string (R195, R196). -/
def GhUnit.absorb (u : GhUnit) (data : Bytes) : GhUnit := { u with X := ghashSeg u.H u.X data }

/-- GH.UPDATE (R195). -/
def execGhUpdate (src len : Word) (s : State) : Host.Outcome State Fault Refusal :=
  command .gh (ghUpdateCheck src len s) (finish 0 { s with gh := s.gh.absorb (operand s src len) }) s

/-- GH.SEGMENT (R196). -/
def execGhSegment (src len : Word) (s : State) : Host.Outcome State Fault Refusal :=
  command .gh (if !inRange s.cfg src.toNat len.toNat then some .srcRange else none)
    (finish 0 { s with gh := s.gh.absorb (operand s src len) }) s

/-- Unit GH after GH.FINAL (R197). -/
def GhUnit.final (u : GhUnit) (aadLen msgLen : Nat) : GhUnit := { u with X := ghashFin u.H u.X aadLen msgLen }

/-- GH.FINAL (R197). -/
def execGhFinal (aadLen msgLen dst : Word) (s : State) : Host.Outcome State Fault Refusal :=
  let u := s.gh.final aadLen.toNat msgLen.toNat
  command .gh (if !inRange s.cfg dst.toNat 16 then some .dstRange else none)
    (finish 0 ({ s with gh := u }.storeBytes dst.toNat (blockBytes u.X))) s

/-- GH.RESET (R198). -/
def execGhReset (s : State) : Host.Outcome State Fault Refusal :=
  command .gh none (finish 0 { s with gh := { s.gh with X := 0 } }) s

/-- GH.READ (R199). -/
def execGhRead (dst : Word) (s : State) : Host.Outcome State Fault Refusal :=
  command .gh (if !inRange s.cfg dst.toNat 16 then some .dstRange else none)
    (finish 0 (s.storeBytes dst.toNat (blockBytes s.gh.X))) s

/-- GH.DESTROY (R200). -/
def execGhDestroy (s : State) : Host.Outcome State Fault Refusal :=
  command .gh none (finish 0 { s with gh := GhUnit.reset }) s

end Sys2Proof.Machine
end

