-- ==== Sys2Proof/Machine/Salsa.lean ====
section
/-! DEFINITION. The Salsa20 core (spec/41_prim_perm.md R161 to R163). -/

namespace Sys2Proof.Machine

/-- The sixteen words of a Salsa20 state. -/
abbrev SalsaWords := Vector Word 16

/-- `quarterround(y0, y1, y2, y3)` (R161). -/
def quarterround (y0 y1 y2 y3 : Word) : Word × Word × Word × Word :=
  let z1 := y1 ^^^ (y0 + y3).rotateLeft 7
  let z2 := y2 ^^^ (z1 + y0).rotateLeft 9
  let z3 := y3 ^^^ (z2 + z1).rotateLeft 13
  let z0 := y0 ^^^ (z3 + z2).rotateLeft 18
  (z0, z1, z2, z3)

/-- `quarterround` in place on four of the sixteen words (R162). -/
def quarterroundAt (x : SalsaWords) (i : Fin 16 × Fin 16 × Fin 16 × Fin 16) : SalsaWords :=
  let (a, b, c, d) := i
  let (z0, z1, z2, z3) := quarterround x[a] x[b] x[c] x[d]
  (((x.set a z0).set b z1).set c z2).set d z3

/-- The index tuples of the column round (R162). -/
def columnTuples : List (Fin 16 × Fin 16 × Fin 16 × Fin 16) :=
  [(0, 4, 8, 12), (5, 9, 13, 1), (10, 14, 2, 6), (15, 3, 7, 11)]

/-- The index tuples of the row round (R162). -/
def rowTuples : List (Fin 16 × Fin 16 × Fin 16 × Fin 16) :=
  [(0, 1, 2, 3), (5, 6, 7, 4), (10, 11, 8, 9), (15, 12, 13, 14)]

/-- `doubleround(x)`: a column round, then a row round (R162). -/
def doubleround (x : SalsaWords) : SalsaWords := rowTuples.foldl quarterroundAt (columnTuples.foldl quarterroundAt x)

/-- `n` double rounds. -/
def doublerounds : Nat → SalsaWords → SalsaWords
  | 0, x => x
  | n + 1, x => doublerounds n (doubleround x)

/-- `SalsaBlock(s, r)`: 64 bytes (R163). -/
def salsaBlock (s : SalsaWords) (r : Nat) : Bytes :=
  (List.zipWith (· + ·) (doublerounds (r / 2) s).toList s.toList).flatMap fun o => leBytes 4 o.toNat

end Sys2Proof.Machine
end

