-- ==== Sys2Proof/Machine/Ss.lean ====
section
/-! DEFINITION. Unit SS, Salsa20 (spec/46_salsa20.md R330 to R338). -/

namespace Sys2Proof.Machine

/-- A legal round count (R330). -/
def roundsLegal (rounds : Byte) : Bool := 8 ≤ rounds.toNat && rounds.toNat ≤ 30 && rounds.toNat % 2 == 0

/-- `sigma`: the ASCII text "expand 32-byte k" (R331). -/
def ssSigma : Bytes :=
  [0x65, 0x78, 0x70, 0x61, 0x6e, 0x64, 0x20, 0x33, 0x32, 0x2d, 0x62, 0x79, 0x74, 0x65, 0x20, 0x6b]

/-- `tau`: the ASCII text "expand 16-byte k" (R331). -/
def ssTau : Bytes :=
  [0x65, 0x78, 0x70, 0x61, 0x6e, 0x64, 0x20, 0x31, 0x36, 0x2d, 0x62, 0x79, 0x74, 0x65, 0x20, 0x6b]

/-- Little-endian word `i` of a byte string. -/
def leWordAt (s : Bytes) (i : Nat) : Word := le32 (slice s (4 * i) (4 * i + 4))

/-- The constant bytes: the info when it is given, else by the key length (R331, R333, R340). -/
def ssConst (k : KeyContainer) : Bytes :=
  if k.info.length = 16 then k.info else if k.key.length = 32 then ssSigma else ssTau

/-- The sixteen words with counter 0 (R332); a 16-byte key is duplicated (R331). -/
def ssExpand (k : KeyContainer) : SalsaWords :=
  let c := leWordAt (ssConst k)
  let key := leWordAt (if k.key.length = 16 then k.key ++ k.key else k.key)
  let n := leWordAt k.nonce
  #v[c 0, key 0, key 1, key 2, key 3, c 1, n 0, n 1, 0, 0, c 2, key 4, key 5, key 6, key 7, c 3]

/-- The checks of SS.INIT (R333). -/
def ssInitCheck (rounds : Byte) (kc len : Word) (s : State) : Option Cause :=
  let k := parseContainer (operand s kc len)
  if !roundsLegal rounds then some .rounds
  else if !inRange s.cfg kc.toNat len.toNat then some .srcRange
  else if !containerFits (operand s kc len) then some .containerLen
  else if k.key.length ≠ 16 ∧ k.key.length ≠ 32 then some .keyLen
  else if k.nonce.length ≠ 8 then some .nonceLen
  else if k.info.length ≠ 0 ∧ k.info.length ≠ 16 then some .infoLen
  else none

/-- Unit SS keyed from a container (R333). -/
def SsUnit.init (u : SsUnit) (rounds : Byte) (k : KeyContainer) : SsUnit :=
  { u.zeroize with s := ssExpand k, rounds := rounds, phase := .ready }

/-- SS.INIT (R333). -/
def execSsInit (rounds : Byte) (kc len : Word) (s : State) : Host.Outcome State Fault Refusal :=
  command .ss (ssInitCheck rounds kc len s)
    (finish 0 { s with ss := s.ss.init rounds (parseContainer (operand s kc len)) }) s

/-- The 64-bit block counter, words 8 (low) and 9 (high) (R59, R332). -/
def ssCounter (w : SalsaWords) : Word64 := w[9] ++ w[8]

/-- `SsIncrement()` (R335). -/
def ssIncrement (w : SalsaWords) : SalsaWords :=
  let n := ssCounter w + 1
  (w.set 8 (n.extractLsb' 0 32)).set 9 (n.extractLsb' 32 32)

/-- The loop of R334 over the 64-byte pieces of the input: the output and the state words afterwards. -/
def ssLoop (rounds : Nat) : List Bytes → SalsaWords → Bytes × SalsaWords
  | [], w => ([], w)
  | blk :: rest, w =>
    let r := ssLoop rounds rest (ssIncrement w)
    (xorBytes blk (salsaBlock w rounds) ++ r.1, r.2)

/-- The loop of R334 on a byte string. -/
def ssStream (rounds : Byte) (w : SalsaWords) (input : Bytes) : Bytes × SalsaWords :=
  ssLoop rounds.toNat (chunks 64 input) w

/-- The checks of SS.XFORM (R334). -/
def ssXformCheck (src dst len : Word) (s : State) : Option Cause :=
  if s.ss.phase ≠ .ready then some .notInitialized else xformRangeCheck src dst len s

/-- The effect of SS.XFORM (R334). -/
def ssXformEffect (src dst len : Word) (s : State) : State :=
  let r := ssStream s.ss.rounds s.ss.s (operand s src len)
  finish 0 ({ s with ss := { s.ss with s := r.2 } }.storeBytes dst.toNat r.1)

/-- SS.XFORM (R334). -/
def execSsXform (src dst len : Word) (s : State) : Host.Outcome State Fault Refusal :=
  command .ss (ssXformCheck src dst len s) (ssXformEffect src dst len s) s

/-- SS.DESTROY (R338). -/
def execSsDestroy (s : State) : Host.Outcome State Fault Refusal :=
  command .ss none (finish 0 { s with ss := s.ss.zeroize }) s

end Sys2Proof.Machine
end

