-- ==== Sys2Proof/Machine/Sys.lean ====
section
/-! DEFINITION. Unit SYS (spec/48_system.md R380 to R387). -/

namespace Sys2Proof.Machine

/-- SYS.NOP (R381). -/
def execSysNop (s : State) : Host.Outcome State Fault Refusal := command .sys none (finish 0 s) s

/-- Every unit but JENT at its reset value, the replay guard and the profiles included (R382). -/
def zeroizeAll (s : State) : State :=
  { s with
    gh := GhUnit.reset
    ctr := CtrUnit.reset
    gcm := GcmUnit.reset
    dg := DgUnit.reset
    ss := SsUnit.reset
    drbg := if s.cfg.hasDrbg then DrbgUnit.reset s.cfg else s.drbg }

/-- SYS.RESET (R382). -/
def execSysReset (s : State) : Host.Outcome State Fault Refusal := command .sys none (finish 0 (zeroizeAll s)) s

/-- `PAR_MIN(u) = LANES * bs(u) * NPROC` (R383), by unit number: bs is 64 for SS and 16 for CTR and GCM. -/
def parMin (p : Params) (target : Byte) : Nat := p.lanes * (if target = 5 then 64 else 16) * p.nproc

/-- The checks of SYS.SETPAR (R384). -/
def sysSetparCheck (target : Byte) (en : Bool) (degree block : Word) (s : State) : Option Cause :=
  if target ≠ 2 ∧ target ≠ 3 ∧ target ≠ 5 then some .setparUnit
  else if en then
    if degree.toNat < 2 ∨ degree.toNat % 2 = 1 ∨ s.cfg.nproc < degree.toNat then some .parDegree
    else if block.toNat = 0 ∨ block.toNat % parMin s.cfg target ≠ 0 then some .parBlock
    else none
  else if degree ≠ 0 then some .parDegree
  else if block ≠ 0 then some .parBlock
  else none

/-- `u.par <- p` for the unit with number `target` (R384). -/
def setPar (target : Byte) (p : Par) (s : State) : State :=
  if target = 2 then { s with ctr := { s.ctr with par := p } }
  else if target = 3 then { s with gcm := { s.gcm with par := p } }
  else if target = 5 then { s with ss := { s.ss with par := p } }
  else s

/-- SYS.SETPAR (R384). The degree of a profile that passes the checks fits the 8-bit field of R43, because NPROC is at
most 254 (R12). -/
def execSysSetpar (target : Byte) (en : Bool) (degree block : Word) (s : State) : Host.Outcome State Fault Refusal :=
  command .sys (sysSetparCheck target en degree block s)
    (finish 0 (setPar target { en := en, degree := degree.setWidth 8, block := block } s)) s

end Sys2Proof.Machine
end

