-- ==== Sys2Proof/Machine/Dispatch.lean ====
section
/-! DEFINITION. The dispatch: one arm per command. -/

namespace Sys2Proof.Machine

def exec (i : Instr) (s : State) : Host.Outcome State Fault Refusal :=
  match i with
  | .sysNop => Sys2Proof.Machine.execSysNop s
  | .sysReset => Sys2Proof.Machine.execSysReset s
  | .sysSetpar target en degree block => Sys2Proof.Machine.execSysSetpar target en degree block s
  | .ghInit addr => Sys2Proof.Machine.execGhInit addr s
  | .ghUpdate src len => Sys2Proof.Machine.execGhUpdate src len s
  | .ghSegment src len => Sys2Proof.Machine.execGhSegment src len s
  | .ghFinal aadLen msgLen dst => Sys2Proof.Machine.execGhFinal aadLen msgLen dst s
  | .ghReset => Sys2Proof.Machine.execGhReset s
  | .ghRead dst => Sys2Proof.Machine.execGhRead dst s
  | .ghDestroy => Sys2Proof.Machine.execGhDestroy s
  | .ctrInit kc len => Sys2Proof.Machine.execCtrInit kc len s
  | .ctrXform src dst len => Sys2Proof.Machine.execCtrXform src dst len s
  | .ctrDestroy => Sys2Proof.Machine.execCtrDestroy s
  | .gcmInit enc autoInc keepAd kc len => Sys2Proof.Machine.execGcmInit enc autoInc keepAd kc len s
  | .gcmAad src len => Sys2Proof.Machine.execGcmAad src len s
  | .gcmXform src dst len => Sys2Proof.Machine.execGcmXform src dst len s
  | .gcmFinal base offset tagLen => Sys2Proof.Machine.execGcmFinal base offset tagLen s
  | .gcmVerify base offset tagLen => Sys2Proof.Machine.execGcmVerify base offset tagLen s
  | .gcmDestroy => Sys2Proof.Machine.execGcmDestroy s
  | .dgInit alg addr len => Sys2Proof.Machine.execDgInit alg addr len s
  | .dgUpdate src len => Sys2Proof.Machine.execDgUpdate src len s
  | .dgFinal dst => Sys2Proof.Machine.execDgFinal dst s
  | .dgReset => Sys2Proof.Machine.execDgReset s
  | .dgCompute src dst len => Sys2Proof.Machine.execDgCompute src dst len s
  | .dgDestroy => Sys2Proof.Machine.execDgDestroy s
  | .ssInit rounds kc len => Sys2Proof.Machine.execSsInit rounds kc len s
  | .ssXform src dst len => Sys2Proof.Machine.execSsXform src dst len s
  | .ssDestroy => Sys2Proof.Machine.execSsDestroy s
  | .jentGet dst len => Sys2Proof.Machine.execJentGet dst len s
  | .jentNext => Sys2Proof.Machine.execJentNext s
  | .jentAvail => Sys2Proof.Machine.execJentAvail s
  | .drbgInit kind seed len => Sys2Proof.Machine.execDrbgInit kind seed len s
  | .drbgGen dst len => Sys2Proof.Machine.execDrbgGen dst len s
  | .drbgReset => Sys2Proof.Machine.execDrbgReset s
  | .drbgDestroy => Sys2Proof.Machine.execDrbgDestroy s

end Sys2Proof.Machine
end

