-- ==== Sys2Proof/Machine/Sequencer.lean ====
section
/-! DEFINITION. The sequencer (spec/00_scope.md R24): it takes the issued descriptor (spec/10_state.md R38), decodes it
(spec/30_encoding.md R116) and executes the command as one atomic step. -/

namespace Sys2Proof.Machine

/-- The descriptor in DESC0 to DESC3 (R38). -/
def State.desc (s : State) : Desc := ⟨s.desc0, s.desc1, s.desc2, s.desc3⟩

/-- The command, or the decoding error, that the descriptor registers hold (R116). -/
def State.decoded (s : State) : Decoded := decode s.cfg.hasJent s.cfg.hasDrbg s.desc

/-- A command issued, to its end: "illegal is an outcome of the machine (an error reported in STATUS), not a stop"
(R117). -/
def runCommand (s : State) : Host.Outcome State Fault Refusal :=
  match s.decoded with
  | .command i => exec i s
  | .illegal e => .next (raiseDecode e s)

/-- The host reads STATUS and RESULT when a command has ended (R450, R461; log 20). -/
def report (s : State) : State := { s with outbox := .ended (statusWord s.status) s.result :: s.outbox }

/-- The step of the sequencer. -/
def sequencerStep (s : State) : Host.Outcome State Fault Refusal :=
  match runCommand s with
  | .next t => .next (report t)
  | .fault r => .fault r
  | .refused r => .refused r

end Sys2Proof.Machine
end

