-- ==== Sys2Proof/Machine/Step.lean ====
section
/-! DEFINITION. One step of the machine: the sequencer while a command is issued, else the host's next move
(spec/00_scope.md R24, spec/70_reset_and_hazards.md R450). -/

namespace Sys2Proof.Machine

/-- The event of the host that a step takes now, and the events after it: the next one when BUSY is 0 or in the fault
state; when BUSY is 1 only one that does not wait (R450; log 7). -/
def State.nextEvent (s : State) : Option (HostMove × List HostEvent) :=
  match s.inbox with
  | [] => none
  | e :: rest => if !s.status.busy || e.early || s.status.fault then some (e.move, rest) else none

/-- One step. With BUSY 0 and no move of the host pending the engine is idle and keeps its state (R429). FAULT = 1 is
the fault state: no step but hardware reset (R450, U1; log 7). -/
def step (s : State) : Host.Outcome State Fault Refusal :=
  match s.nextEvent with
  | some (m, rest) =>
    if s.status.fault then stuckMove m { s with inbox := rest }
    else if s.status.busy then earlyMove m { s with inbox := rest }
    else hostMove m { s with inbox := rest }
  | none => if s.status.fault then .fault .protocolBroken else if s.status.busy then sequencerStep s else .next s

/-- `s` with the descriptor of bits `w` in DESC0 to DESC3 and issued, as the host's four register writes leave it
(R38, R450 (b), (c); log 5); a move that the host would make before the command has run is dropped, and so is a FAULT
that would stop the step. -/
def State.withFetchWord (s : State) (nbits w : Nat) : State :=
  let d := descOfNat nbits w
  issue d.w0
    { s with
      desc1 := d.w1, desc2 := d.w2, desc3 := d.w3, inbox := s.inbox.dropWhile fun e => e.early
      status := { s.status with fault := false } }

end Sys2Proof.Machine
end

