-- ==== Sys2Proof/Machine/Assembler.lean ====
section
/-! DEFINITION. The assembler syntax of a command (spec/30_encoding.md R121), as a line of text with decimal numbers. -/

namespace Sys2Proof.Machine

/-- A mnemonic and its operands, separated by commas (R121). -/
def asmLine (mnemonic : String) : List String → String
  | [] => mnemonic
  | ops => mnemonic ++ " " ++ String.intercalate ", " ops

/-- A number operand in decimal (R121). -/
def asmNum {w : Nat} (v : BitVec w) : String := toString v.toNat

/-- The unit operand of `sys.setpar` (R121); R384 writes another unit by its number. -/
def asmUnit (target : Byte) : String :=
  if target = 2 then "ctr" else if target = 3 then "gcm" else if target = 5 then "ss" else asmNum target

/-- The kind operand of `drbg.init` (R121); kind 3 has no keyword. -/
def asmKind (kind : BitVec 2) : Option String :=
  if kind = 0 then some "b2" else if kind = 1 then some "keccak" else if kind = 2 then some "aes" else none

/-- The flags of `gcm.init` (R121). -/
def asmGcmFlags (enc autoInc keepAd : Bool) : List String :=
  [if enc then "enc" else "dec"] ++ (if autoInc then ["autoinc"] else []) ++ (if keepAd then ["keepad"] else [])

/-- The line of a command; none where R121 has no syntax for it. -/
def assemble : Instr → Option String
  | .sysNop => some "sys.nop"
  | .sysReset => some "sys.reset"
  | .sysSetpar target en degree block =>
    some (asmLine "sys.setpar" [asmUnit target, if en then "on" else "off", asmNum degree, asmNum block])
  | .ghInit addr => some (asmLine "gh.init" [asmNum addr])
  | .ghUpdate src len => some (asmLine "gh.update" [asmNum src, asmNum len])
  | .ghSegment src len => some (asmLine "gh.segment" [asmNum src, asmNum len])
  | .ghFinal aadLen msgLen dst => some (asmLine "gh.final" [asmNum aadLen, asmNum msgLen, asmNum dst])
  | .ghReset => some "gh.reset"
  | .ghRead dst => some (asmLine "gh.read" [asmNum dst])
  | .ghDestroy => some "gh.destroy"
  | .ctrInit kc len => some (asmLine "ctr.init" [asmNum kc, asmNum len])
  | .ctrXform src dst len => some (asmLine "ctr.xform" [asmNum src, asmNum dst, asmNum len])
  | .ctrDestroy => some "ctr.destroy"
  | .gcmInit enc autoInc keepAd kc len =>
    some (asmLine "gcm.init" (asmGcmFlags enc autoInc keepAd ++ [asmNum kc, asmNum len]))
  | .gcmAad src len => some (asmLine "gcm.aad" [asmNum src, asmNum len])
  | .gcmXform src dst len => some (asmLine "gcm.xform" [asmNum src, asmNum dst, asmNum len])
  | .gcmFinal base offset tagLen => some (asmLine "gcm.final" [asmNum base, asmNum offset, asmNum tagLen])
  | .gcmVerify base offset tagLen => some (asmLine "gcm.verify" [asmNum base, asmNum offset, asmNum tagLen])
  | .gcmDestroy => some "gcm.destroy"
  | .dgInit alg addr len =>
    some (asmLine "dg.init" [if alg = .keccak then "keccak" else "blake2b", asmNum addr, asmNum len])
  | .dgUpdate src len => some (asmLine "dg.update" [asmNum src, asmNum len])
  | .dgFinal dst => some (asmLine "dg.final" [asmNum dst])
  | .dgReset => some "dg.reset"
  | .dgCompute src dst len => some (asmLine "dg.compute" [asmNum src, asmNum dst, asmNum len])
  | .dgDestroy => some "dg.destroy"
  | .ssInit rounds kc len => some (asmLine "ss.init" [asmNum rounds, asmNum kc, asmNum len])
  | .ssXform src dst len => some (asmLine "ss.xform" [asmNum src, asmNum dst, asmNum len])
  | .ssDestroy => some "ss.destroy"
  | .jentGet dst len => some (asmLine "jent.get" [asmNum dst, asmNum len])
  | .jentNext => some "jent.next"
  | .jentAvail => some "jent.avail"
  | .drbgInit kind seed len => (asmKind kind).map fun k => asmLine "drbg.init" [k, asmNum seed, asmNum len]
  | .drbgGen dst len => some (asmLine "drbg.gen" [asmNum dst, asmNum len])
  | .drbgReset => some "drbg.reset"
  | .drbgDestroy => some "drbg.destroy"

end Sys2Proof.Machine
end

