-- ==== Sys2Proof/Machine/Build.lean ====
section
/-! DEFINITION. The machine with the build parameters as its argument (spec/00_scope.md R11). -/

namespace Sys2Proof.Machine

/-- One step of the build `p`. -/
def buildStep (p : Params) (s : { s : State // s.cfg = p }) :
    Host.Outcome { s : State // s.cfg = p } Fault Refusal :=
  match step s.1 with
  | .next t => .next ⟨{ t with cfg := p }, rfl⟩
  | .fault r => .fault r
  | .refused r => .refused r

/-- The machine built with the parameters `p`: "arguments of the machine (a configuration record), not ... state"
(R11). Its states are those that carry `p`, so that they differ in the state of the chip only (log 1). -/
def build (p : Params) : Host.Core :=
  { State := { s : State // s.cfg = p }, Fault := Fault, Refusal := Refusal, step := buildStep p,
    reset := ⟨State.resetWith p [] JentUnit.reset, rfl⟩ }

end Sys2Proof.Machine
end

