-- ==== Sys2Proof/Safety.lean ====
section
/-! DEFINITION. The terms of the claims: the invariant of the machine, what a command may read and write, and a run
that keeps the host's protocol. -/

namespace Sys2Proof

/-! ### What a command may touch and what it may raise -/

/-- The range of DMEM that a command may write: address and length; none for a command that writes no byte (R91). -/
def Instr.writes : Instr → Option (Nat × Nat)
  | .ghFinal _ _ dst | .ghRead dst => some (dst.toNat, 16)
  | .ctrXform _ dst len | .gcmXform _ dst len | .ssXform _ dst len => some (dst.toNat, len.toNat)
  | .gcmFinal base offset tagLen => some (Machine.tagAddress base offset, tagLen.toNat)
  | .dgFinal dst | .dgCompute _ dst _ => some (dst.toNat, 64)
  | .jentGet dst len | .drbgGen dst len => some (dst.toNat, len.toNat)
  | .sysNop | .sysReset | .sysSetpar _ _ _ _ | .ghInit _ | .ghUpdate _ _ | .ghSegment _ _ | .ghReset | .ghDestroy
  | .ctrInit _ _ | .ctrDestroy | .gcmInit _ _ _ _ _ | .gcmAad _ _ | .gcmVerify _ _ _ | .gcmDestroy | .dgInit _ _ _
  | .dgUpdate _ _ | .dgReset | .dgDestroy | .ssInit _ _ _ | .ssDestroy | .jentNext | .jentAvail | .drbgInit _ _ _
  | .drbgReset | .drbgDestroy => none

/-- The range of DMEM that a command may read; length 0 for a command that reads no byte (R91). -/
def Instr.reads : Instr → Nat × Nat
  | .ghInit addr => (addr.toNat, 16)
  | .ghUpdate src len | .ghSegment src len | .gcmAad src len | .dgUpdate src len => (src.toNat, len.toNat)
  | .ctrInit kc len | .gcmInit _ _ _ kc len | .ssInit _ kc len => (kc.toNat, len.toNat)
  | .ctrXform src _ len | .gcmXform src _ len | .ssXform src _ len | .dgCompute src _ len => (src.toNat, len.toNat)
  | .gcmVerify base offset tagLen => (Machine.tagAddress base offset, tagLen.toNat)
  | .dgInit _ addr len => (addr.toNat, len.toNat)
  | .drbgInit _ seed len => (seed.toNat, len.toNat)
  | .sysNop | .sysReset | .sysSetpar _ _ _ _ | .ghFinal _ _ _ | .ghReset | .ghRead _ | .ghDestroy | .ctrDestroy
  | .gcmFinal _ _ _ | .gcmDestroy | .dgFinal _ | .dgReset | .dgDestroy | .ssDestroy | .jentGet _ _ | .jentNext
  | .jentAvail | .drbgGen _ _ | .drbgReset | .drbgDestroy => (0, 0)

/-- The causes that a command can raise after decoding, in the order they are checked (R430). -/
def Instr.causes : Instr → List Machine.Cause
  | .sysNop | .sysReset | .ghReset | .ghDestroy | .ctrDestroy | .gcmDestroy | .dgDestroy | .ssDestroy | .jentAvail
  | .drbgDestroy => []
  | .sysSetpar _ _ _ _ => [.setparUnit, .parDegree, .parBlock]
  | .ghInit _ | .ghSegment _ _ => [.srcRange]
  | .ghUpdate _ _ => [.lengthAlign, .srcRange]
  | .ghFinal _ _ _ | .ghRead _ => [.dstRange]
  | .ctrInit _ _ => [.srcRange, .containerLen, .keyLen, .nonceLen, .infoLen]
  | .ctrXform _ _ _ | .ssXform _ _ _ => [.notInitialized, .srcRange, .dstRange, .overlap]
  | .gcmInit _ _ _ _ _ => [.srcRange, .containerLen, .keyLen, .nonceLen, .infoLen, .nonceRepeat]
  | .gcmAad _ _ => [.notInitialized, .afterFinalize, .aadOrder, .aadTooLong, .srcRange]
  | .gcmXform _ _ _ => [.notInitialized, .afterFinalize, .afterTail, .srcRange, .dstRange, .overlap]
  | .gcmFinal _ _ _ => [.notInitialized, .tagLen, .dstRange, .nonceWrap]
  | .gcmVerify _ _ _ => [.notInitialized, .verifyEncrypt, .tagLen, .srcRange, .nonceWrap]
  | .dgInit _ _ _ =>
    [.srcRange, .containerLen, .dgDigestLen, .keyLen, .parDegree, .dgLeafLen, .dgNode, .dgSeqParams]
  | .dgUpdate _ _ => [.notInitialized, .srcRange]
  | .dgFinal _ => [.notInitialized, .dstRange]
  | .dgReset => [.notInitialized]
  | .dgCompute _ _ _ => [.notInitialized, .srcRange, .dstRange]
  | .ssInit _ _ _ => [.rounds, .srcRange, .containerLen, .keyLen, .nonceLen, .infoLen]
  | .jentGet _ _ => [.jentUnavailable, .dstRange]
  | .jentNext => [.jentUnavailable]
  | .drbgInit _ _ _ => [.drbgKind, .srcRange, .seedLen]
  | .drbgGen _ _ => [.notInitialized, .dstRange]
  | .drbgReset => [.notInitialized, .jentUnavailable]

end Sys2Proof

namespace Sys2Proof.Machine

/-! ### The registers -/

/-- Every cause but the reserved one, which "a code not in the table never occurs" still lists (R402). -/
def allCauses : List Cause :=
  [.illegalUnit, .illegalOp, .reservedNonzero, .containerLen, .keyLen, .nonceLen, .infoLen, .nonceRepeat, .nonceWrap,
    .seedLen, .notInitialized, .aadOrder, .verifyEncrypt, .afterFinalize, .afterTail, .tagLen, .parDegree, .parBlock,
    .rounds, .lengthAlign, .overlap, .dgDigestLen, .dgLeafLen, .dgNode, .dgSeqParams, .aadTooLong, .setparUnit,
    .drbgKind, .jentUnavailable, .srcRange, .dstRange]

/-- The pair (EKIND, ECAUSE) is a row of the table of R402 that a command can raise. -/
def causeRow (ekind : BitVec 4) (ecause : Byte) : Bool :=
  allCauses.any fun c => c.kind.code == ekind && c.code == ecause

/-- STATUS after a successful command, `vok` being its VOK (R36). -/
def Status.ended (st : Status) (vok : Bool) : Status :=
  { busy := false, err := false, vok := vok, fault := st.fault, ekind := 0, eunit := 0, ecause := 0 }

/-- STATUS after `raise Kind(CAUSE)` by unit `u` (R405). -/
def Status.raised (st : Status) (u : UnitId) (c : Cause) : Status :=
  { busy := false, err := true, vok := false, fault := st.fault, ekind := c.kind.code,
    eunit := BitVec.ofNat 4 u.number, ecause := c.code }

/-- What STATUS and RESULT hold together: no error fields without ERR, a row of R402 with ERR, RESULT 0 after an error
and while a command is issued, and VOK only with RESULT 1 (R36, R37, R402, R405). -/
def Status.coherent (st : Status) (result : Word) : Prop :=
  (st.err = false → st.ekind = 0 ∧ st.eunit = 0 ∧ st.ecause = 0) ∧
    (st.err = true → st.busy = false ∧ st.vok = false ∧ result = 0 ∧ causeRow st.ekind st.ecause = true) ∧
    (st.busy = true → st.vok = false ∧ result = 0) ∧ (st.vok = true → result = 1)

/-! ### The invariant, unit by unit -/

/-- DMEM is in canonical form and lists no byte that does not exist (R80). -/
def memoryOk (s : State) : Prop := s.dmem.wf ∧ s.dmem.below s.cfg.dmemSize

/-- A profile is off and all zero, or legal for the unit with number `target` (R43, R384). -/
def Par.ok (p : Params) (target : Byte) (par : Par) : Prop :=
  (par.en = false → par = Par.reset) ∧
    (par.en = true →
      2 ≤ par.degree.toNat ∧ par.degree.toNat % 2 = 0 ∧ par.degree.toNat ≤ p.nproc ∧ par.block ≠ 0 ∧
        par.block.toNat % parMin p target = 0)

/-- Unit CTR: phase Uninit holds no key (R65), phase Ready a key of legal length (R45). -/
def CtrUnit.ok (u : CtrUnit) : Prop :=
  (u.phase = .uninit ∧ u = u.zeroize) ∨ (u.phase = .ready ∧ aesKeyLegal u.key = true)

/-- Unit GCM in a session (R53): the derived blocks, the sizes of R231, the guard of R51, the flags of R50, and the
tag of a finalized session. -/
def GcmUnit.inSession (u : GcmUnit) : Prop :=
  aesKeyLegal u.key = true ∧ 8 ≤ u.N.length ∧ u.N.length ≤ 16 ∧ u.H = aes u.key 0 ∧ u.J0 = gcmJ0 u.H u.N ∧
    u.guardValid = true ∧ u.guardKey = u.key ∧ u.guardN = u.N ∧
    (u.tail = true → u.phase = .transforming ∨ u.phase = .finalized) ∧ (u.phase = .finalized → u.autoInc = false) ∧
    (u.phase = .finalized → u.tag = aes u.key u.J0 ^^^ u.X) ∧ (u.aadKept = true → u.preserveAd = true)

/-- Unit GCM: phase Uninit holds nothing but the guard (R65); the retained AAD fits its buffer (R52). -/
def GcmUnit.ok (p : Params) (u : GcmUnit) : Prop :=
  (u.phase = .uninit → u = u.zeroize) ∧ (u.phase ≠ .uninit → u.inSession) ∧ u.aadStore.length ≤ p.aadMax ∧
    (u.aadKept = false → u.aadStore = [])

/-- The tree parameters, key and buffer of unit DG in phase Ready (R54 to R57, R284). -/
def DgUnit.started (p : Params) (u : DgUnit) : Prop :=
  u.phase = .ready ∧ fanoutLegal p u.P = true ∧ u.prm.digestLen = 64 ∧ u.key.length = u.prm.keyLen.toNat ∧
    u.key.length ≤ 64 ∧ (u.alg = .keccak → u.key = []) ∧ u.prm.leafLen.toNat % dgBs u.alg = 0 ∧
    u.leaves.length = u.P ∧ u.buf.length ≤ 2 * u.W ∧ ∀ l ∈ u.leaves, l.f0 = 0 ∧ l.f1 = 0

/-- Unit DG: all zero in phase Uninit (R65), else started. -/
def DgUnit.ok (p : Params) (u : DgUnit) : Prop := u = DgUnit.reset ∨ u.started p

/-- Unit SS: phase Uninit holds no key (R65), phase Ready a legal round count (R59). -/
def SsUnit.ok (u : SsUnit) : Prop :=
  (u.phase = .uninit ∧ u = u.zeroize) ∨ (u.phase = .ready ∧ roundsLegal u.rounds = true)

/-- Unit JENT: the scratch region is 512 x 32 bytes (R60). -/
def JentUnit.ok (u : JentUnit) : Prop := u.mem.wf ∧ u.mem.below 16384

/-- Unit DRBG: all zero in phase Uninit (R65), else a legal kind, a seed that is long enough, and the buffer of R61. -/
def DrbgUnit.ok (p : Params) (u : DrbgUnit) : Prop :=
  u = DrbgUnit.reset p ∨
    (u.phase = .ready ∧ u.kind ≠ 3 ∧ minSeed p u.kind ≤ u.seed.length ∧ u.buf.length = p.drbgBuf ∧ u.idx ≤ p.drbgBuf)

/-- The three profiles (R43). -/
def profilesOk (s : State) : Prop := s.ctr.par.ok s.cfg 2 ∧ s.gcm.par.ok s.cfg 3 ∧ s.ss.par.ok s.cfg 5

/-- The invariant of the units. -/
def unitsOk (s : State) : Prop :=
  s.ctr.ok ∧ s.gcm.ok s.cfg ∧ s.dg.ok s.cfg ∧ s.ss.ok ∧ s.jent.ok ∧ s.drbg.ok s.cfg

/-- The invariant of the machine, in a build with legal parameters (R12). -/
def State.inv (s : State) : Prop :=
  s.cfg.legal ∧ s.status.coherent s.result ∧ memoryOk s ∧ profilesOk s ∧ unitsOk s

/-! ### What a command leaves alone -/

/-- DMEM of `t` is DMEM of `s` with the string `v` at address `a`, every other byte as before (R21). -/
def wrote (s t : State) (a : Nat) (v : Bytes) : Prop :=
  ∀ b, t.dmem.readByte b = if a ≤ b ∧ b < a + v.length then v.getD (b - a) 0 else s.dmem.readByte b

/-- Every byte of DMEM reads as before. -/
def sameMemory (s t : State) : Prop := ∀ b, t.dmem.readByte b = s.dmem.readByte b

/-- Every unit but `u` is the same in both states (R42). -/
def sameOtherUnits (u : UnitId) (s t : State) : Prop :=
  (u ≠ .gh → t.gh = s.gh) ∧ (u ≠ .ctr → t.ctr = s.ctr) ∧ (u ≠ .gcm → t.gcm = s.gcm) ∧ (u ≠ .dg → t.dg = s.dg) ∧
    (u ≠ .ss → t.ss = s.ss) ∧ (u ≠ .jent → t.jent = s.jent) ∧ (u ≠ .drbg → t.drbg = s.drbg)

/-- What no command changes: the build (R11), the descriptor registers (R38), and the host's side of the model
(logs 5 and 20). -/
def sameHostSide (s t : State) : Prop :=
  t.cfg = s.cfg ∧ t.desc0 = s.desc0 ∧ t.desc1 = s.desc1 ∧ t.desc2 = s.desc2 ∧ t.desc3 = s.desc3 ∧ t.inbox = s.inbox ∧
    t.outbox = s.outbox

/-- The state without what must not matter: the three profiles, LANES and NPROC (R386). -/
def State.withoutParallel (s : State) : State :=
  { s with cfg := { s.cfg with lanes := 4, nproc := 1 }, ctr := { s.ctr with par := Par.reset },
           gcm := { s.gcm with par := Par.reset }, ss := { s.ss with par := Par.reset } }

/-- The command raises the error: `raise` and no other effect (R405). -/
def raises (i : Instr) (s : State) (c : Cause) : Prop := exec i s = .next (raiseError i.unit c s)

/-- The range of `n` bytes at `a` is in DMEM (R83, R84). -/
abbrev inDmem (s : State) (a n : Nat) : Prop := n = 0 ∨ a + n ≤ s.cfg.dmemSize

/-- Two ranges of `n` bytes that share a byte and are not the same (R85). -/
abbrev overlapInPart (a b n : Nat) : Prop := a ≠ b ∧ a < b + n ∧ b < a + n

/-- The first failing range check of a transform of `n` bytes (R83 to R85). -/
def xformError (s : State) (src dst n : Nat) : Option Cause :=
  if ¬ inDmem s src n then some .srcRange
  else if ¬ inDmem s dst n then some .dstRange
  else if overlapInPart src dst n then some .overlap
  else none

/-- The bytes of a key container do not have the length that they claim (R96). -/
abbrev containerMisfit (v : Bytes) : Prop :=
  v.length < 6 ∨ 6 + containerKlen v + containerNlen v + containerIlen v ≠ v.length

/-! ### Operands as the host prepares them -/

/-- The bytes of a key container (R95). -/
def containerBytes (key nonce info : Bytes) : Bytes :=
  leBytes 2 key.length ++ leBytes 2 nonce.length ++ leBytes 2 info.length ++ key ++ nonce ++ info

/-- The bytes of a tree-parameter record with `node_offset` and `node_depth` 0 (R283, R286). -/
def recordBytes (prm : DgPrm) (key : Bytes) : Bytes := dgPB prm 0 0 ++ key

/-- The host has put the byte string `v` in DMEM at the address `a`, inside DMEM, and `n` is its length. -/
def holds (s : State) (a n : Word) (v : Bytes) : Prop :=
  n.toNat = v.length ∧ a.toNat + v.length ≤ s.cfg.dmemSize ∧ s.dmem.readBytes a.toNat v.length = v

/-! ### Streams, byte by byte -/

/-- Keystream byte `k` of counter mode from counter `c`: block `k / 16` is `AES_K(add128(c, k / 16))` (R215). -/
def ctrKeystreamByte (key : Bytes) (c : Block) (k : Nat) : Byte :=
  (blockBytes (aes key (c + BitVec.ofNat 128 (k / 16)))).getD (k % 16) 0

/-- The Salsa20 words with the counter advanced by `n` blocks (R335, R337). -/
def ssAdvance (w : SalsaWords) (n : Nat) : SalsaWords :=
  let c := ssCounter w + BitVec.ofNat 64 n
  (w.set 8 (c.extractLsb' 0 32)).set 9 (c.extractLsb' 32 32)

/-- Keystream byte `k` of Salsa20: block `k / 64` is `SalsaBlock` of the words with the counter advanced by `k / 64`
(R337). -/
def ssKeystreamByte (rounds : Byte) (w : SalsaWords) (k : Nat) : Byte :=
  (salsaBlock (ssAdvance w (k / 64)) rounds.toNat).getD (k % 64) 0

/-- The generator state `G_j` of R368, from `G_0 = g`. -/
def drbgStateAt (kind : BitVec 2) (size : Nat) (g : Bytes) : Nat → Bytes
  | 0 => g
  | j + 1 => Config.drbgGenState kind (drbgStateAt kind size g j) size

/-- Byte `k` of the stream `c_0 || c_1 || c_2 || ...` of R368, from `G_0 = g`. -/
def drbgStreamByte (kind : BitVec 2) (size : Nat) (g : Bytes) (k : Nat) : Byte :=
  Config.drbgGenByte kind (drbgStateAt kind size g (k / size)) size (k % size)

/-- The unit's buffer holds block 0 of the stream from `g`, and its generator has moved on to block 1 (R367, R368). -/
def DrbgUnit.onStream (u : DrbgUnit) (size : Nat) (g : Bytes) : Prop :=
  u.buf = drawBytes (Config.drbgGenByte u.kind g size) size ∧ u.gstate = Config.drbgGenState u.kind g size ∧
    u.idx ≤ size

/-! ### Runs -/

/-- The host waits for BUSY = 0 before every move that it still has to make (R450). -/
def protocolKept (s : State) : Prop := ∀ e ∈ s.inbox, e.early = false

/-- The next step is the sequencer's: a command is issued, the host does not break in, and it has not broken the
protocol before (R24, R450). -/
def commandDue (s : State) : Prop := s.status.busy = true ∧ s.nextEvent = none ∧ s.status.fault = false

end Sys2Proof.Machine
end

