-- ==== Sys2Proof/Certificates/Slice0/Obligations.lean ====
section
/-! DEFINITION. The statements for the provers, one Prop each. `holds s a n v` says that the host has put the string
`v` in DMEM; `wrote s t a v` that DMEM of `t` is DMEM of `s` with `v` at `a` and every other byte as before. Where a
statement gives `t` as a record update of `s`, every field that the update does not name is unchanged. -/

section

open Sys2Proof Sys2Proof.Machine

/-! ### Encoding -/

/-- Decoding an encoded command gives it back, with every operand at every value (R110 to R118). -/
def Obligations.DecodeEncode : Prop :=
  ∀ (p : Params) (i : Instr), i.wellFormed p = true → decode p.hasJent p.hasDrbg (encode i) = .command i

/-- A descriptor that decodes to a command is the encoding of that command, and the command exists in the build: every
command has one descriptor (R111, R116, R117). -/
def Obligations.EncodeDecode : Prop :=
  ∀ (p : Params) (d : Desc) (i : Instr),
    decode p.hasJent p.hasDrbg d = .command i → i.wellFormed p = true ∧ encode i = d

/-- The four steps of decoding in their order, the first failure wins (R116). -/
def Obligations.DecodeOrder : Prop :=
  ∀ (hasJent hasDrbg : Bool) (d : Desc),
    let absent := 8 ≤ d.unit.toNat ∨ (d.unit = 6 ∧ hasJent = false) ∨ (d.unit = 7 ∧ hasDrbg = false)
    (d.w0.toNat / 2 ^ 24 ≠ 0 → decode hasJent hasDrbg d = .illegal .reservedNonzero) ∧
    (d.w0.toNat / 2 ^ 24 = 0 → absent → decode hasJent hasDrbg d = .illegal .illegalUnit) ∧
    (d.w0.toNat / 2 ^ 24 = 0 → ¬ absent → (∀ r ∈ opTable, r.opcode ≠ d.opcode) →
      decode hasJent hasDrbg d = .illegal .illegalOp) ∧
    (d.w0.toNat / 2 ^ 24 = 0 → ¬ absent → ∀ r ∈ opTable, r.opcode = d.opcode →
      decode hasJent hasDrbg d =
        if d.flags &&& ~~~ r.flags ≠ 0 ∨ (r.imm = false ∧ d.imm8 ≠ 0) ∨ (r.format.usesA = false ∧ d.w1 ≠ 0) ∨
            (r.format.usesB = false ∧ d.w2 ≠ 0) ∨ (r.format.usesN = false ∧ d.w3 ≠ 0) then
          .illegal .reservedNonzero
        else .command (r.build d))

/-- Words written out from the encoding tables decode to the commands they stand for (R118, R123), and the opcode
bytes of the table are all different. -/
def Obligations.WordsDecode : Prop :=
  decode true true ⟨0x00000130, 0, 0, 0x22⟩ = .command (.gcmInit true false false 0 34) ∧
  decode true true ⟨0x00000630, 0x40, 0, 0x26⟩ = .command (.gcmInit false true true 0x40 38) ∧
  decode true true ⟨0x000C0034, 0x300, 4, 0⟩ = .command (.gcmVerify 0x300 4 12) ∧
  decode true true ⟨0x00140050, 0, 0, 0x2E⟩ = .command (.ssInit 20 0 46) ∧
  decode true true ⟨0x00000140, 0x80, 0, 0x13⟩ = .command (.dgInit .keccak 0x80 19) ∧
  decode true true ⟨0x00030102, 4, 0, 0x400⟩ = .command (.sysSetpar 3 true 4 1024) ∧
  decode true true ⟨0x00000013, 0x14, 0x500, 0x3C⟩ = .command (.ghFinal 20 60 0x500) ∧
  decode true true ⟨0x00000270, 0, 0, 0x30⟩ = .command (.drbgInit 2 0 48) ∧
  decode true true ⟨0x01000032, 0, 0, 0⟩ = .illegal .reservedNonzero ∧
  decode true true ⟨0x00000036, 0, 0, 0⟩ = .illegal .illegalOp ∧
  decode true true ⟨0x00000080, 0, 0, 0⟩ = .illegal .illegalUnit ∧
  opTable.length = 35 ∧ opTable.Pairwise fun r q => r.opcode ≠ q.opcode

/-! ### Steps and the host -/

/-- A step of the sequencer runs the command that the descriptor registers hold, and reports (STATUS, RESULT) to the
host (R24, R38; the report is the model's form of R461, log 20). -/
def Obligations.StepRunsCommand : Prop :=
  ∀ (s t : State) (i : Instr), commandDue s → s.decoded = .command i → exec i s = .next t →
    step s = .next { t with outbox := .ended (statusWord t.status) t.result :: t.outbox }

/-- A decoding error changes no unit, whatever unit number the descriptor carries: STATUS holds its cause with EUNIT 0
and kind InvalidParameter, RESULT is 0, nothing else changes; the STATUS words of the three errors (R405, R411). That
the step also gives (STATUS, RESULT) to the list of replies is the model's choice, its form of R461 (log 20). -/
def Obligations.StepReportsDecodeError : Prop :=
  (∀ (s : State) (e : DecodeError), commandDue s → s.decoded = .illegal e →
    let st := s.status.raised .sys (decodeCause e)
    step s = .next { s with result := 0, status := st, outbox := .ended (statusWord st) 0 :: s.outbox } ∧
      st.eunit = 0 ∧ st.ekind = 3 ∧
      statusWord st =
        match e with
        | .illegalUnit => 0x00010304
        | .illegalOp => 0x00020304
        | .reservedNonzero => 0x00030304) ∧
  (∀ hasJent hasDrbg : Bool,
    decode hasJent hasDrbg ⟨0x00000080, 0, 0, 0⟩ = .illegal .illegalUnit ∧
    decode hasJent hasDrbg ⟨0x00000036, 0, 0, 0⟩ = .illegal .illegalOp ∧
    decode hasJent hasDrbg ⟨0x01000000, 0, 0, 0⟩ = .illegal .reservedNonzero)

/-- `withFetchWord` puts a command where the next step runs it, and leaves the units, DMEM and the configuration
alone. -/
def Obligations.FetchWordIsRun : Prop :=
  ∀ (i : Instr) (s : State), i.wellFormed s.cfg = true →
    let t := s.withFetchWord 128 (encode i).bits
    commandDue t ∧ t.decoded = .command i ∧ t.cfg = s.cfg ∧ t.dmem = s.dmem ∧ t.gh = s.gh ∧ t.ctr = s.ctr ∧
      t.gcm = s.gcm ∧ t.dg = s.dg ∧ t.ss = s.ss ∧ t.jent = s.jent ∧ t.drbg = s.drbg ∧ t.draws = s.draws

/-- The descriptor registers: a write to DESC1 to DESC3 stores and does nothing else; a write to DESC0 stores and
issues; a write while BUSY is 1 stores nothing and is a protocol fault; a command does not change them (R38). -/
def Obligations.DescriptorWrites : Prop :=
  (∀ (s : State) (v : Word) (e : Bool) (rest : List HostEvent) (offset : Nat), s.status.busy = false →
    s.status.fault = false → s.inbox = ⟨.writeReg 4 offset v, e⟩ :: rest →
      (offset = 0x24 → step s = .next { s with desc1 := v, inbox := rest }) ∧
      (offset = 0x28 → step s = .next { s with desc2 := v, inbox := rest }) ∧
      (offset = 0x2C → step s = .next { s with desc3 := v, inbox := rest }) ∧
      (offset = 0x20 → ∃ t, step s = .next t ∧ t.desc = ⟨v, s.desc1, s.desc2, s.desc3⟩ ∧
        t = { s with desc0 := v, inbox := rest, result := 0,
                     status := { busy := true, err := false, vok := false, fault := s.status.fault, ekind := 0,
                                 eunit := 0, ecause := 0 } })) ∧
  (∀ (s : State) (v : Word) (rest : List HostEvent) (offset : Nat), s.status.busy = true →
    s.status.fault = false → s.inbox = ⟨.writeReg 4 offset v, true⟩ :: rest → offset ∈ [0x20, 0x24, 0x28, 0x2C] →
      step s = .next { s with inbox := rest, status := { s.status with fault := true } }) ∧
  (∀ (i : Instr) (s t : State), exec i s = .next t → t.desc = s.desc)

/-- The register map: the content of every register, 0 at every other offset of the 256 bytes, writes ignored but at
DESC0 to DESC3, also as a step of the host at any time, and the values after reset (R33). -/
def Obligations.RegisterMap : Prop :=
  (∀ s : State,
    regRead s 0x00 = 0x43455810 ∧ regRead s 0x04 = capWord s.cfg ∧ regRead s 0x08 = BitVec.ofNat 32 s.cfg.dmemSize ∧
    regRead s 0x0C = BitVec.ofNat 32 s.cfg.aadMax ∧ regRead s 0x10 = statusWord s.status ∧
    regRead s 0x14 = s.result ∧ regRead s 0x18 = phasesWord s ∧ regRead s 0x20 = s.desc0 ∧
    regRead s 0x24 = s.desc1 ∧ regRead s 0x28 = s.desc2 ∧ regRead s 0x2C = s.desc3 ∧
    regRead s 0x30 = pardegWord s ∧ regRead s 0x34 = s.ctr.par.block ∧ regRead s 0x38 = s.gcm.par.block ∧
    regRead s 0x3C = s.ss.par.block) ∧
  (∀ (s : State) (offset : Nat), offset % 4 = 0 → offset = 0x1C ∨ (0x40 ≤ offset ∧ offset < 256) →
    regRead s offset = 0) ∧
  (∀ (s : State) (offset : Nat) (v : Word), offset ∉ [0x20, 0x24, 0x28, 0x2C] → regWrite offset v s = s) ∧
  (∀ (s : State) (offset : Nat) (v : Word) (e : Bool) (rest : List HostEvent), offset % 4 = 0 → offset < 256 →
    offset ∉ [0x20, 0x24, 0x28, 0x2C] → (s.status.busy = true → e = true) → s.status.fault = false →
    s.inbox = ⟨.writeReg 4 offset v, e⟩ :: rest → step s = .next { s with inbox := rest }) ∧
  (∀ (p : Params) (m : Memory) (j : JentUnit) (offset : Nat), 0x10 ≤ offset →
    regRead (State.resetWith p m j) offset = 0)

/-- The host's accesses in a step (R80, R90, R92, R450). A register read has no side effect, at any time. While BUSY
is 0 a DMEM read has none, and a DMEM write stores its bytes and changes nothing else. While BUSY is 1 both set FAULT:
a read returns unspecified bytes, a write leaves unspecified bytes, and no unit changes. With FAULT set there is no
step but hardware reset. A register access that is not an aligned 32-bit word is refused. That an access outside the
256 bytes of REG or outside DMEM faults (logs 13, 14), the free values and the fault state (log 7) and the list of
replies (log 20) are the model's choices. -/
def Obligations.HostAccess : Prop :=
  (∀ (s : State) (offset : Nat) (e : Bool) (rest : List HostEvent), offset % 4 = 0 → offset < 256 →
    (s.status.busy = true → e = true) → s.status.fault = false → s.inbox = ⟨.readReg 4 offset, e⟩ :: rest →
      step s = .next { s with inbox := rest, outbox := .reg (regRead s offset) :: s.outbox }) ∧
  (∀ (s : State) (width offset : Nat) (v : Word) (e : Bool) (rest : List HostEvent),
    (s.status.busy = true → e = true) → s.status.fault = false →
    s.inbox = ⟨.readReg width offset, e⟩ :: rest ∨ s.inbox = ⟨.writeReg width offset v, e⟩ :: rest →
      (width ≠ 4 ∨ offset % 4 ≠ 0 → step s = .refused .registerAccessForm) ∧
      (width = 4 → offset % 4 = 0 → 256 ≤ offset → step s = .fault .noSuchRegister)) ∧
  (∀ (s : State) (addr n : Nat) (e : Bool) (rest : List HostEvent), s.status.fault = false →
    s.inbox = ⟨.readDmem addr n, e⟩ :: rest →
      (inDmem s addr n → s.status.busy = false →
        step s = .next { s with inbox := rest, outbox := .dmem (s.dmem.readBytes addr n) :: s.outbox }) ∧
      (inDmem s addr n → s.status.busy = true → e = true → ∃ v : Bytes, v.length = n ∧
        step s = .next { s with
          inbox := rest, outbox := .dmem v :: s.outbox, draws := s.draws + 1
          status := { s.status with fault := true } }) ∧
      (¬ inDmem s addr n → (s.status.busy = true → e = true) → step s = .fault .noSuchDmemAddress)) ∧
  (∀ (s : State) (addr : Nat) (v : Bytes) (e : Bool) (rest : List HostEvent), s.status.fault = false →
    s.inbox = ⟨.writeDmem addr v, e⟩ :: rest →
      (inDmem s addr v.length → s.status.busy = false → s.dmem.wf →
        ∃ t, step s = .next t ∧ t = { s with inbox := rest, dmem := t.dmem } ∧ wrote s t addr v) ∧
      (inDmem s addr v.length → s.status.busy = true → e = true → ∃ m : Memory,
        step s = .next { s with
          inbox := rest, dmem := m, draws := s.draws + 1, status := { s.status with fault := true } }) ∧
      (¬ inDmem s addr v.length → (s.status.busy = true → e = true) → step s = .fault .noSuchDmemAddress)) ∧
  (∀ s : State, s.status.fault = true → (∀ e rest, s.inbox ≠ ⟨.hardReset, e⟩ :: rest) →
    step s = .fault .protocolBroken)

/-- The fields of CAP (R34); the build parameters and so CAP are constant in every step, and the machine that takes
the parameters as its argument steps as the machine does (R11; `build` is the model's form of it, log 1). -/
def Obligations.CapFields : Prop :=
  (∀ p : Params, p.legal →
    ((capWord p).extractLsb' 0 8).toNat = p.lanes ∧ ((capWord p).extractLsb' 8 8).toNat = p.nproc ∧
    (capWord p).getLsbD 16 = p.hasJent ∧ (capWord p).getLsbD 17 = p.hasDrbg ∧ (capWord p).extractLsb' 18 14 = 0) ∧
  (∀ s t : State, step s = .next t → t.cfg = s.cfg ∧ capWord t.cfg = capWord s.cfg) ∧
  (∀ (p : Params) (s t : { s : State // s.cfg = p }),
    buildStep p s = .next t ↔ step s.1 = .next t.1)

/-- STATUS after an error is `(ECAUSE << 16) | (EUNIT << 12) | (EKIND << 8) | 0x04`, with 0x10 when FAULT was set
(R431). -/
def Obligations.StatusWordOfError : Prop :=
  ∀ (i : Instr) (s t : State), exec i s = .next t → t.status.err = true →
    ∃ c ∈ i.causes,
      statusWord t.status =
        (c.code.setWidth 32 <<< 16) ||| (BitVec.ofNat 32 i.unit.number <<< 12) ||| (c.kind.code.setWidth 32 <<< 8) |||
          0x04 ||| (if s.status.fault then 0x10 else 0)

/-- The nibbles of PHASES (R39). -/
def Obligations.PhasesNibbles : Prop :=
  ∀ s : State,
    (phasesWord s).extractLsb' 0 4 = 0 ∧ (phasesWord s).extractLsb' 4 4 = 0 ∧
    (phasesWord s).extractLsb' 8 4 = s.ctr.phase.code ∧ (phasesWord s).extractLsb' 12 4 = s.gcm.phase.code ∧
    (phasesWord s).extractLsb' 16 4 = s.dg.phase.code ∧ (phasesWord s).extractLsb' 20 4 = s.ss.phase.code ∧
    (phasesWord s).extractLsb' 24 4 = 0 ∧ (phasesWord s).extractLsb' 28 4 = s.drbg.phase.code ∧
    ((phasesWord s).extractLsb' 12 4 = 4 ↔ s.gcm.phase = .finalized)

/-- PARDEG and PBS_* show the profiles, which change only by SYS.SETPAR, SYS.RESET and hardware reset (R40). -/
def Obligations.ProfileRegisters : Prop :=
  (∀ s : State,
    (regRead s 0x30).extractLsb' 0 8 = s.ctr.par.degree ∧ (regRead s 0x30).extractLsb' 8 8 = s.gcm.par.degree ∧
    (regRead s 0x30).extractLsb' 16 8 = s.ss.par.degree ∧ (regRead s 0x30).getLsbD 24 = s.ctr.par.en ∧
    (regRead s 0x30).getLsbD 25 = s.gcm.par.en ∧ (regRead s 0x30).getLsbD 26 = s.ss.par.en ∧
    (regRead s 0x30).extractLsb' 27 5 = 0 ∧ regRead s 0x34 = s.ctr.par.block ∧ regRead s 0x38 = s.gcm.par.block ∧
    regRead s 0x3C = s.ss.par.block) ∧
  (∀ s t : State, step s = .next t →
    (t.ctr.par = s.ctr.par ∧ t.gcm.par = s.gcm.par ∧ t.ss.par = s.ss.par) ∨
    (commandDue s ∧ s.decoded = .command .sysReset) ∨
    (commandDue s ∧ ∃ u e d b, s.decoded = .command (.sysSetpar u e d b)) ∨
    (∃ rest, s.nextEvent = some (.hardReset, rest)))

/-- Hardware reset, at any time and in the fault state too: every register, unit and profile at its reset value; DMEM
and unit JENT hold unspecified values, of which nothing is said but that DMEM lists existing bytes (R440). That the
host's moves and what it was given stay is the model's choice (log 17). -/
def Obligations.HardResetState : Prop :=
  ∀ (s : State) (e : Bool) (rest : List HostEvent),
    (s.status.busy = true → s.status.fault = false → e = true) → s.inbox = ⟨.hardReset, e⟩ :: rest →
    ∃ t, step s = .next t ∧ memoryOk t ∧
      t = { State.resetWith s.cfg t.dmem t.jent with inbox := rest, outbox := s.outbox, draws := t.draws }

/-! ### All commands -/

/-- Every command ends in a next state, with BUSY 0, whatever the state (R409, R460). -/
def Obligations.EveryCommandEnds : Prop :=
  ∀ (i : Instr) (s : State), ∃ t, exec i s = .next t ∧ t.status.busy = false

/-- An error of a command is one of the causes of the command; it sets STATUS and RESULT and has the unit effect of
its unit; no DMEM byte, no other unit, no draw, no descriptor register changes (R405, R410, R430). -/
def Obligations.ErrorsArePrecise : Prop :=
  ∀ (i : Instr) (s t : State), exec i s = .next t → t.status.err = true →
    ∃ c ∈ i.causes,
      t.status = { busy := false, err := true, vok := false, fault := s.status.fault, ekind := c.kind.code,
                   eunit := BitVec.ofNat 4 i.unit.number, ecause := c.code } ∧
      t.result = 0 ∧ t.dmem = s.dmem ∧ t.draws = s.draws ∧ sameHostSide s t ∧ sameOtherUnits i.unit s t ∧
      t.jent = s.jent ∧
      (i.unit = .gh → t.gh = { H := 0, X := 0 }) ∧
      (i.unit = .ctr → t.ctr = { CtrUnit.reset with par := s.ctr.par }) ∧
      (i.unit = .gcm → s.gcm.phase = .finalized → t.gcm = s.gcm) ∧
      (i.unit = .gcm → s.gcm.phase ≠ .finalized →
        t.gcm = { GcmUnit.reset with guardValid := s.gcm.guardValid, guardKey := s.gcm.guardKey,
                                     guardN := s.gcm.guardN, par := s.gcm.par }) ∧
      (i.unit = .dg → t.dg = DgUnit.reset) ∧
      (i.unit = .ss → t.ss = { SsUnit.reset with par := s.ss.par }) ∧
      (i.unit = .drbg → t.drbg = DrbgUnit.reset s.cfg)

/-- The successful end of a command: no error field is set, VOK only after GCM.VERIFY, RESULT 0 but for GCM.VERIFY,
JENT.NEXT and JENT.AVAIL; RESULT is 0 after an error (R36, R37). -/
def Obligations.SuccessfulEnd : Prop :=
  ∀ (i : Instr) (s t : State), exec i s = .next t →
    (t.status.err = true → t.result = 0) ∧
    (t.status.err = false →
      t.status = { busy := false, err := false, vok := t.status.vok, fault := s.status.fault, ekind := 0, eunit := 0,
                   ecause := 0 } ∧
      (t.status.vok = true → (∃ b o n, i = .gcmVerify b o n) ∧ t.result = 1) ∧
      (t.result ≠ 0 → (∃ b o n, i = .gcmVerify b o n ∧ t.status.vok = true) ∨ i = .jentNext ∨
        (i = .jentAvail ∧ t.result = 1 ∧ s.jent.available = true)))

/-- A command of a unit but SYS changes no other unit than its own (the commands of unit SYS are stated apart), and no
command changes the build, the descriptor registers or FAULT; the host's list of moves and what it was given are not
the command's (R11, R36, R38, R42). -/
def Obligations.OnlyOwnUnit : Prop :=
  ∀ (i : Instr) (s t : State), exec i s = .next t →
    (i.unit ≠ .sys → sameOtherUnits i.unit s t) ∧ sameHostSide s t ∧ t.status.fault = s.status.fault

/-- A command writes no byte of DMEM outside the range that its descriptor names, and a command that names none writes
none: the engine never touches a DMEM byte outside the ranges of the running command's descriptor (R91, R452). -/
def Obligations.WritesOnlyItsRange : Prop :=
  ∀ (i : Instr) (s t : State), s.dmem.wf → exec i s = .next t →
    (i.writes = none → t.dmem = s.dmem) ∧
    (∀ a n, i.writes = some (a, n) → ∀ b, b < a ∨ a + n ≤ b → t.dmem.readByte b = s.dmem.readByte b)

/-- A command depends on no byte of DMEM outside the source range that its descriptor names: with any other contents
there, it ends in the same state and writes the same bytes at the same address (R91, R101, R104). For JENT.GET,
JENT.NEXT and DRBG.RESET, which R101 excepts, this rests on the model's draws: both runs start at the same draw
number, so their draws are equal (log 8). -/
def Obligations.ReadsOnlyItsRange : Prop :=
  ∀ (i : Instr) (s : State) (m : Memory),
    (∀ b, i.reads.1 ≤ b → b < i.reads.1 + i.reads.2 → m.readByte b = s.dmem.readByte b) →
    ∃ t a v, exec i s = .next t ∧ t.dmem = s.dmem.writeBytes a v ∧
      exec i { s with dmem := m } = .next { t with dmem := m.writeBytes a v }

/-- The replay guard: written by a successful initialization, by GCM.INIT and by the re-initialization of
auto-increment (a tag taken in a phase other than Finalized with AUTOINC), kept by every error and by every other
command, and zeroized only by GCM.DESTROY and SYS.RESET (R51). -/
def Obligations.GuardSurvives : Prop :=
  ∀ (i : Instr) (s t : State), exec i s = .next t →
    (t.status.err = true ∨ (i.unit ≠ .gcm ∧ i ≠ .sysReset) ∨ (∃ a n, i = .gcmAad a n) ∨
        (∃ a b n, i = .gcmXform a b n) →
      t.gcm.guardValid = s.gcm.guardValid ∧ t.gcm.guardKey = s.gcm.guardKey ∧ t.gcm.guardN = s.gcm.guardN) ∧
    (∀ e a k kc n, i = .gcmInit e a k kc n → t.status.err = false →
      t.gcm.guardValid = true ∧ t.gcm.guardKey = t.gcm.key ∧ t.gcm.guardN = t.gcm.N) ∧
    ((∃ b o n, i = .gcmFinal b o n ∨ i = .gcmVerify b o n) → t.status.err = false →
      (s.gcm.phase ≠ .finalized → s.gcm.autoInc = true →
        t.gcm.guardValid = true ∧ t.gcm.guardKey = s.gcm.key ∧ t.gcm.guardN = incNonce s.gcm.N ∧
          t.gcm.key = s.gcm.key ∧ t.gcm.N = incNonce s.gcm.N) ∧
      (s.gcm.phase = .finalized ∨ s.gcm.autoInc = false →
        t.gcm.guardValid = s.gcm.guardValid ∧ t.gcm.guardKey = s.gcm.guardKey ∧ t.gcm.guardN = s.gcm.guardN)) ∧
    (i = .gcmDestroy ∨ i = .sysReset →
      t.gcm.guardValid = false ∧ t.gcm.guardKey = [] ∧ t.gcm.guardN = [])

/-- `jent.available` is constant until the next hardware reset (R353). -/
def Obligations.JentAvailableConstant : Prop :=
  ∀ s t : State, step s = .next t →
    t.jent.available = s.jent.available ∨ ∃ rest, s.nextEvent = some (.hardReset, rest)

/-- A profile, LANES and NPROC never change a result: from two states that agree in everything else a command ends in
states that agree in everything else; SYS.SETPAR and, as to NPROC, DG.INIT are left out for their legality checks
(R386). -/
def Obligations.ProfilesNeverMatter : Prop :=
  ∀ (i : Instr) (s s' : State), s.withoutParallel = s'.withoutParallel →
    (∀ u e d b, i ≠ .sysSetpar u e d b) → ((∃ alg a n, i = .dgInit alg a n) → s.cfg.nproc = s'.cfg.nproc) →
    ∃ t t', exec i s = .next t ∧ exec i s' = .next t' ∧ t.withoutParallel = t'.withoutParallel

/-- In phase Uninit every command that needs the unit initialized raises NOT_INITIALIZED, whatever its operands
(R402, R407). -/
def Obligations.UninitRefuses : Prop :=
  ∀ (s : State) (a b n : Word) (tl : Byte),
    (s.ctr.phase = .uninit → exec (.ctrXform a b n) s = .next (raiseError .ctr .notInitialized s)) ∧
    (s.gcm.phase = .uninit → ∀ i ∈ [Instr.gcmAad a n, .gcmXform a b n, .gcmFinal a b tl, .gcmVerify a b tl],
      exec i s = .next (raiseError .gcm .notInitialized s)) ∧
    (s.dg.phase = .uninit → ∀ i ∈ [Instr.dgUpdate a n, .dgFinal b, .dgReset, .dgCompute a b n],
      exec i s = .next (raiseError .dg .notInitialized s)) ∧
    (s.ss.phase = .uninit → exec (.ssXform a b n) s = .next (raiseError .ss .notInitialized s)) ∧
    (s.drbg.phase = .uninit → ∀ i ∈ [Instr.drbgGen b n, .drbgReset],
      exec i s = .next (raiseError .drbg .notInitialized s))

/-- The codes of the kinds and causes, and the kind of every cause (R401, R402); a cause is determined by its code. -/
def Obligations.CauseTable : Prop :=
  (allCauses.map fun c => (c.code.toNat, c.kind.code.toNat)) =
    [(0x01, 3), (0x02, 3), (0x03, 3), (0x10, 1), (0x11, 1), (0x12, 1), (0x13, 1), (0x14, 1), (0x15, 1), (0x16, 1),
     (0x20, 2), (0x21, 2), (0x22, 2), (0x23, 2), (0x24, 2), (0x30, 3), (0x31, 3), (0x32, 3), (0x33, 3), (0x34, 3),
     (0x35, 3), (0x36, 3), (0x37, 3), (0x38, 3), (0x39, 3), (0x3A, 3), (0x3B, 3), (0x3D, 3), (0x50, 5), (0x60, 6),
     (0x61, 6)] ∧
  (∀ c d : Cause, c.code = d.code → c = d)

/-! ### Invariants -/

/-- The state after hardware reset meets the invariant, in every legal build (R64). That DMEM lists nothing and JENT
is as it is are the model's choices (logs 2, 3, 4). -/
def Obligations.ResetMeetsInvariant : Prop :=
  State.reset.inv ∧ ∀ p : Params, p.legal → (State.resetWith p [] JentUnit.reset).inv

/-- Every step keeps DMEM in canonical form and inside its size (R80, R83). -/
def Obligations.StepKeepsMemory : Prop :=
  ∀ s t : State, memoryOk s → step s = .next t → memoryOk t

/-- Every step keeps STATUS and RESULT coherent (R36, R37, R402), and FAULT stays 0 while the host keeps the protocol
(R450). -/
def Obligations.StepKeepsStatus : Prop :=
  (∀ s t : State, s.status.coherent s.result → step s = .next t → t.status.coherent t.result) ∧
  (∀ s t : State, protocolKept s → s.status.fault = false → step s = .next t →
    protocolKept t ∧ t.status.fault = false)

/-- Every step keeps the invariants of unit GCM: derived blocks, sizes, guard, tail, tag of a finalized session, and
nothing held in phase Uninit (R53, R65). -/
def Obligations.StepKeepsGcm : Prop :=
  ∀ s t : State, s.gcm.ok s.cfg → step s = .next t → t.gcm.ok t.cfg

/-- Every step keeps the invariant of the machine. -/
def Obligations.StepKeepsInvariant : Prop :=
  ∀ s t : State, s.inv → step s = .next t → t.inv

/-! ### Unit SYS -/

/-- SYS.NOP and SYS.RESET (R381, R382). -/
def Obligations.SysNopAndReset : Prop :=
  ∀ s : State,
    encode .sysNop = ⟨0, 0, 0, 0⟩ ∧ encode .sysReset = ⟨1, 0, 0, 0⟩ ∧
    exec .sysNop s = .next { s with result := 0, status := s.status.ended false } ∧
    exec .sysReset s = .next
      { s with gh := GhUnit.reset, ctr := CtrUnit.reset, gcm := GcmUnit.reset, dg := DgUnit.reset,
               ss := SsUnit.reset, drbg := if s.cfg.hasDrbg then DrbgUnit.reset s.cfg else s.drbg,
               result := 0, status := s.status.ended false }

/-- SYS.SETPAR: with legal operands it sets the profile of CTR, GCM or SS and nothing else; otherwise it raises
SETPAR_UNIT, PAR_DEGREE or PAR_BLOCK, in this order, and changes no unit (R384). -/
def Obligations.SysSetparEffect : Prop :=
  ∀ (s : State) (target : Byte) (en : Bool) (degree block : Word), s.cfg.legal →
    let parMin := s.cfg.lanes * (if target = 5 then 64 else 16) * s.cfg.nproc
    let unitOk := target = 2 ∨ target = 3 ∨ target = 5
    let degreeOk :=
      if en then 2 ≤ degree.toNat ∧ degree.toNat % 2 = 0 ∧ degree.toNat ≤ s.cfg.nproc else degree.toNat = 0
    let blockOk := if en then block.toNat ≠ 0 ∧ block.toNat % parMin = 0 else block.toNat = 0
    let error := fun (c : Cause) => { s with result := 0, status := s.status.raised .sys c }
    (¬ unitOk → exec (.sysSetpar target en degree block) s = .next (error .setparUnit)) ∧
    (unitOk → ¬ degreeOk → exec (.sysSetpar target en degree block) s = .next (error .parDegree)) ∧
    (unitOk → degreeOk → ¬ blockOk → exec (.sysSetpar target en degree block) s = .next (error .parBlock)) ∧
    (degreeOk → blockOk → ∃ p : Par, p.en = en ∧ p.degree.toNat = degree.toNat ∧ p.block = block ∧
      (target = 2 → exec (.sysSetpar 2 en degree block) s = .next
        { s with ctr := { s.ctr with par := p }, result := 0, status := s.status.ended false }) ∧
      (target = 3 → exec (.sysSetpar 3 en degree block) s = .next
        { s with gcm := { s.gcm with par := p }, result := 0, status := s.status.ended false }) ∧
      (target = 5 → exec (.sysSetpar 5 en degree block) s = .next
        { s with ss := { s.ss with par := p }, result := 0, status := s.status.ended false }))

/-! ### Unit GH -/

/-- GH.INIT (R194). -/
def Obligations.GhInitEffect : Prop :=
  ∀ (addr : Word) (s : State),
    encode (.ghInit addr) = ⟨0x10, addr, 0, 0⟩ ∧
    (addr.toNat + 16 ≤ s.cfg.dmemSize →
      exec (.ghInit addr) s = .next
        { s with gh := { H := blockOfBytes (s.dmem.readBytes addr.toNat 16), X := 0 }, result := 0,
                 status := s.status.ended false }) ∧
    (s.cfg.dmemSize < addr.toNat + 16 →
      exec (.ghInit addr) s = .next
        { s with gh := { H := 0, X := 0 }, result := 0, status := s.status.raised .gh .srcRange })

/-- GH.UPDATE and GH.SEGMENT: the string is absorbed; a length that is not a multiple of 16 is an error of GH.UPDATE
only, found before the range error (R195, R196). -/
def Obligations.GhAbsorbEffect : Prop :=
  ∀ (src len : Word) (s : State),
    let range := len.toNat = 0 ∨ src.toNat + len.toNat ≤ s.cfg.dmemSize
    let done := { s with
      gh := { H := s.gh.H, X := ghashSeg s.gh.H s.gh.X (s.dmem.readBytes src.toNat len.toNat) }, result := 0,
      status := s.status.ended false }
    let error := fun c => { s with gh := { H := 0, X := 0 }, result := 0, status := s.status.raised .gh c }
    encode (.ghUpdate src len) = ⟨0x11, src, 0, len⟩ ∧ encode (.ghSegment src len) = ⟨0x12, src, 0, len⟩ ∧
    (range → exec (.ghSegment src len) s = .next done) ∧
    (¬ range → exec (.ghSegment src len) s = .next (error .srcRange)) ∧
    (len.toNat % 16 = 0 → range → exec (.ghUpdate src len) s = .next done) ∧
    (len.toNat % 16 = 0 → ¬ range → exec (.ghUpdate src len) s = .next (error .srcRange)) ∧
    (len.toNat % 16 ≠ 0 → exec (.ghUpdate src len) s = .next (error .lengthAlign))

/-- GH.FINAL and GH.READ: sixteen bytes at the destination and no other byte of DMEM (R197, R199). -/
def Obligations.GhFinalAndRead : Prop :=
  ∀ (aadLen msgLen dst : Word) (s : State), s.dmem.wf →
    encode (.ghFinal aadLen msgLen dst) = ⟨0x13, aadLen, dst, msgLen⟩ ∧ encode (.ghRead dst) = ⟨0x15, 0, dst, 0⟩ ∧
    (dst.toNat + 16 ≤ s.cfg.dmemSize →
      (∃ t, exec (.ghFinal aadLen msgLen dst) s = .next t ∧
        t = { s with
          gh := { H := s.gh.H, X := ghashFin s.gh.H s.gh.X aadLen.toNat msgLen.toNat }, dmem := t.dmem, result := 0,
          status := s.status.ended false } ∧
        wrote s t dst.toNat (blockBytes t.gh.X)) ∧
      (∃ t, exec (.ghRead dst) s = .next t ∧
        t = { s with dmem := t.dmem, result := 0, status := s.status.ended false } ∧
        wrote s t dst.toNat (blockBytes s.gh.X))) ∧
    (s.cfg.dmemSize < dst.toNat + 16 → ∀ i ∈ [Instr.ghFinal aadLen msgLen dst, .ghRead dst],
      exec i s = .next { s with gh := { H := 0, X := 0 }, result := 0, status := s.status.raised .gh .dstRange })

/-- GH.RESET, and the DESTROY command of every unit, in every state (R198, R200, R216, R252, R298, R338, R365). -/
def Obligations.ResetAndDestroy : Prop :=
  ∀ s : State,
    encode .ghReset = ⟨0x14, 0, 0, 0⟩ ∧ encode .ghDestroy = ⟨0x16, 0, 0, 0⟩ ∧ encode .ctrDestroy = ⟨0x22, 0, 0, 0⟩ ∧
    encode .gcmDestroy = ⟨0x35, 0, 0, 0⟩ ∧ encode .dgDestroy = ⟨0x45, 0, 0, 0⟩ ∧
    encode .ssDestroy = ⟨0x52, 0, 0, 0⟩ ∧ encode .drbgDestroy = ⟨0x73, 0, 0, 0⟩ ∧
    exec .ghReset s = .next { s with gh := { H := s.gh.H, X := 0 }, result := 0, status := s.status.ended false } ∧
    exec .ghDestroy s = .next { s with gh := GhUnit.reset, result := 0, status := s.status.ended false } ∧
    exec .ctrDestroy s = .next
      { s with ctr := { CtrUnit.reset with par := s.ctr.par }, result := 0, status := s.status.ended false } ∧
    exec .gcmDestroy s = .next
      { s with gcm := { GcmUnit.reset with par := s.gcm.par }, result := 0, status := s.status.ended false } ∧
    exec .dgDestroy s = .next { s with dg := DgUnit.reset, result := 0, status := s.status.ended false } ∧
    exec .ssDestroy s = .next
      { s with ss := { SsUnit.reset with par := s.ss.par }, result := 0, status := s.status.ended false } ∧
    exec .drbgDestroy s = .next { s with drbg := DrbgUnit.reset s.cfg, result := 0, status := s.status.ended false }

/-- Splitting at a multiple of 16 bytes does not change the checksum (R202). -/
def Obligations.GhashSplit : Prop :=
  ∀ (h x : Block) (s1 s2 : Bytes), s1.length % 16 = 0 → ghashSeg h x (s1 ++ s2) = ghashSeg h (ghashSeg h x s1) s2

/-- GHASH is linear (R201). -/
def Obligations.GhashLinear : Prop :=
  ∀ (h x y : Block) (a b : Bytes), a.length = b.length →
    ghashSeg h (x ^^^ y) (xorBytes a b) = ghashSeg h x a ^^^ ghashSeg h y b

/-! ### Key containers and unit CTR -/

/-- The key container: parsing the serialized parts gives them back, and a container that passes the length checks is
the serialization of its parts (R95, R96). -/
def Obligations.ContainerRoundTrip : Prop :=
  (∀ key nonce info : Bytes, key.length < 65536 → nonce.length < 65536 → info.length < 65536 →
    containerFits (containerBytes key nonce info) = true ∧
      parseContainer (containerBytes key nonce info) = ⟨key, nonce, info⟩) ∧
  (∀ kc : Bytes, containerFits kc = true →
    kc = containerBytes (parseContainer kc).key (parseContainer kc).nonce (parseContainer kc).info)

/-- CTR.INIT in every phase: with a container of legal sizes in DMEM, the unit is keyed and its counter is the nonce;
the checks of the container, the first failure is raised (R96, R212). -/
def Obligations.CtrInitEffect : Prop :=
  ∀ (kc len : Word) (s : State),
    (∀ key nonce : Bytes, key.length ∈ [16, 24, 32] → nonce.length = 16 →
      holds s kc len (containerBytes key nonce []) →
        exec (.ctrInit kc len) s = .next
          { s with ctr := { phase := .ready, key := key, c := blockOfBytes nonce, par := s.ctr.par }, result := 0,
                   status := s.status.ended false }) ∧
    (let v := s.dmem.readBytes kc.toNat len.toNat
     let k := parseContainer v
     ∀ c, (if ¬ inDmem s kc.toNat len.toNat then some Cause.srcRange
        else if containerMisfit v then some .containerLen
        else if k.key.length ∉ [16, 24, 32] then some .keyLen
        else if k.nonce.length ≠ 16 then some .nonceLen
        else if k.info.length ≠ 0 then some .infoLen
        else none) = some c → raises (.ctrInit kc len) s c)

/-- CTR.XFORM in phase Ready with ranges in DMEM that are equal or disjoint: byte k of the destination is byte k of
the source as it was before XOR byte k of the keystream, no other byte of DMEM changes, and the counter advances by
the number of started blocks (R213, R214, R215); SRC_RANGE, DST_RANGE and OVERLAP are raised in this order (R83 to
R85). -/
def Obligations.CtrXformEffect : Prop :=
  ∀ (src dst len : Word) (s : State), s.ctr.phase = .ready →
    (s.dmem.wf →
    (len.toNat = 0 ∨ (src.toNat + len.toNat ≤ s.cfg.dmemSize ∧ dst.toNat + len.toNat ≤ s.cfg.dmemSize ∧
      (src = dst ∨ src.toNat + len.toNat ≤ dst.toNat ∨ dst.toNat + len.toNat ≤ src.toNat))) →
    ∃ t, exec (.ctrXform src dst len) s = .next t ∧
      t = { s with
        ctr := { s.ctr with c := s.ctr.c + BitVec.ofNat 128 ((len.toNat + 15) / 16) }, dmem := t.dmem, result := 0,
        status := s.status.ended false } ∧
      ∀ b, t.dmem.readByte b =
        if dst.toNat ≤ b ∧ b < dst.toNat + len.toNat then
          s.dmem.readByte (src.toNat + (b - dst.toNat)) ^^^ ctrKeystreamByte s.ctr.key s.ctr.c (b - dst.toNat)
        else s.dmem.readByte b) ∧
    ∀ c, xformError s src.toNat dst.toNat len.toNat = some c → raises (.ctrXform src dst len) s c

/-- The two stream transforms are their own inverse from the same key and counter, and keep the length (R217, R339).
-/
def Obligations.StreamInvolution : Prop :=
  (∀ (key : Bytes) (c : Block) (x : Bytes),
    (ctrStream key c (ctrStream key c x).1).1 = x ∧ (ctrStream key c x).1.length = x.length ∧
      (ctrStream key c (ctrStream key c x).1).2 = (ctrStream key c x).2) ∧
  (∀ (rounds : Byte) (w : SalsaWords) (x : Bytes),
    (ssStream rounds w (ssStream rounds w x).1).1 = x ∧ (ssStream rounds w x).1.length = x.length ∧
      (ssStream rounds w (ssStream rounds w x).1).2 = (ssStream rounds w x).2)

/-! ### Unit GCM -/

/-- GCM.INIT with a container of legal sizes that is not the guard's pair: the whole unit afterwards; the guard's pair
is refused with NONCE_REPEAT; the checks of the container come first, in their order (R96, R233, R235, R236, R238). -/
def Obligations.GcmInitEffect : Prop :=
  (∀ (enc autoInc keepAd : Bool) (kc len : Word) (s : State) (key nonce : Bytes), key.length ∈ [16, 24, 32] →
    8 ≤ nonce.length → nonce.length ≤ 16 → holds s kc len (containerBytes key nonce []) →
    let h := aes key 0
    let j0 := if nonce.length = 12 then blockOfBytes (nonce ++ [0, 0, 0, 1])
      else ghashFin h (ghashSeg h 0 nonce) 0 nonce.length
    let hit := s.gcm.guardValid = true ∧ s.gcm.guardKey = key ∧ s.gcm.guardN = nonce
    (¬ hit → exec (.gcmInit enc autoInc keepAd kc len) s = .next
      { s with
        gcm := { phase := .ready, key := key, N := nonce, H := h, J0 := j0, c := j0 + 1, X := 0, aadSize := 0,
                 msgSize := 0, tag := 0, enc := enc, autoInc := autoInc, preserveAd := keepAd, tail := false,
                 guardValid := true, guardKey := key, guardN := nonce, aadStore := [], aadKept := false,
                 par := s.gcm.par }
        result := 0, status := s.status.ended false }) ∧
    (hit → raises (.gcmInit enc autoInc keepAd kc len) s .nonceRepeat)) ∧
  (∀ (enc autoInc keepAd : Bool) (kc len : Word) (s : State),
    let v := s.dmem.readBytes kc.toNat len.toNat
    let k := parseContainer v
    ∀ c, (if ¬ inDmem s kc.toNat len.toNat then some Cause.srcRange
      else if containerMisfit v then some .containerLen
      else if k.key.length ∉ [16, 24, 32] then some .keyLen
      else if k.nonce.length < 8 ∨ 16 < k.nonce.length then some .nonceLen
      else if k.info.length ≠ 0 then some .infoLen
      else none) = some c → raises (.gcmInit enc autoInc keepAd kc len) s c)

/-- GCM.AAD in phase Ready: absorbed, counted, retained when KEEPAD is set (R239, R240). -/
def Obligations.GcmAadEffect : Prop :=
  ∀ (src len : Word) (s : State), s.gcm.phase = .ready →
    let data := s.dmem.readBytes src.toNat len.toNat
    let range := len.toNat = 0 ∨ src.toNat + len.toNat ≤ s.cfg.dmemSize
    let fits := s.gcm.preserveAd = true → len.toNat ≤ s.cfg.aadMax
    (fits → range → exec (.gcmAad src len) s = .next
      { s with
        gcm := { s.gcm with
          X := ghashSeg s.gcm.H s.gcm.X data, aadSize := BitVec.ofNat 64 len.toNat, phase := .aadLoaded,
          aadStore := if s.gcm.preserveAd then data else s.gcm.aadStore,
          aadKept := s.gcm.preserveAd || s.gcm.aadKept }
        result := 0, status := s.status.ended false }) ∧
    (¬ fits → exec (.gcmAad src len) s = .next (raiseError .gcm .aadTooLong s)) ∧
    (fits → ¬ range → exec (.gcmAad src len) s = .next (raiseError .gcm .srcRange s))

/-- GCM.XFORM in a session without a tail: the destination is the source XOR the keystream, no other byte of DMEM
changes; the checksum covers the ciphertext in both directions (R241, R242, R243); SRC_RANGE, DST_RANGE and
OVERLAP are raised in this order (R83 to R85). -/
def Obligations.GcmXformEffect : Prop :=
  ∀ (src dst len : Word) (s : State), s.gcm.phase ∈ [.ready, .aadLoaded, .transforming] → s.gcm.tail = false →
    (s.dmem.wf →
    (len.toNat = 0 ∨ (src.toNat + len.toNat ≤ s.cfg.dmemSize ∧ dst.toNat + len.toNat ≤ s.cfg.dmemSize ∧
      (src = dst ∨ src.toNat + len.toNat ≤ dst.toNat ∨ dst.toNat + len.toNat ≤ src.toNat))) →
    ∃ t, exec (.gcmXform src dst len) s = .next t ∧
      t = { s with
        gcm := { s.gcm with
          X := ghashSeg s.gcm.H s.gcm.X
            (if s.gcm.enc then t.dmem.readBytes dst.toNat len.toNat else s.dmem.readBytes src.toNat len.toNat)
          c := s.gcm.c + BitVec.ofNat 128 ((len.toNat + 15) / 16)
          msgSize := s.gcm.msgSize + BitVec.ofNat 64 len.toNat
          tail := decide (len.toNat % 16 ≠ 0)
          phase := .transforming }
        dmem := t.dmem, result := 0, status := s.status.ended false } ∧
      ∀ b, t.dmem.readByte b =
        if dst.toNat ≤ b ∧ b < dst.toNat + len.toNat then
          s.dmem.readByte (src.toNat + (b - dst.toNat)) ^^^ ctrKeystreamByte s.gcm.key s.gcm.c (b - dst.toNat)
        else s.dmem.readByte b) ∧
    ∀ c, xformError s src.toNat dst.toNat len.toNat = some c → raises (.gcmXform src dst len) s c

/-- GCM.FINAL with a legal tag length and range: in phase Finalized the buffered tag is delivered again; otherwise the
tag is computed, and with AUTOINC the session starts again with the next nonce and the retained AAD; the all-ff nonce
is an error then. An illegal tag length, then a range outside DMEM, is an error in every phase but Uninit (R246, R247,
R248). -/
def Obligations.GcmFinalEffect : Prop :=
  (∀ (base offset : Word) (tagLen : Byte) (s : State), s.dmem.wf → 12 ≤ tagLen.toNat → tagLen.toNat ≤ 16 →
    base.toNat + offset.toNat + tagLen.toNat ≤ s.cfg.dmemSize →
    let u := s.gcm
    let x := ghashFin u.H u.X u.aadSize.toNat u.msgSize.toNat
    let tag := aes u.key u.J0 ^^^ x
    let next := beBytes u.N.length (beNat u.N + 1)
    let h := aes u.key 0
    let j0 := gcmJ0 h next
    let ends := fun (v : GcmUnit) (tag : Block) => ∃ t, exec (.gcmFinal base offset tagLen) s = .next t ∧
      t = { s with gcm := v, dmem := t.dmem, result := 0, status := s.status.ended false } ∧
      wrote s t (base.toNat + offset.toNat) ((blockBytes tag).take tagLen.toNat)
    (u.phase = .finalized → ends u u.tag) ∧
    (u.phase ∈ [.ready, .aadLoaded, .transforming] → u.autoInc = false →
      ends { u with X := x, tag := tag, phase := .finalized } tag) ∧
    (u.phase ∈ [.ready, .aadLoaded, .transforming] → u.autoInc = true → (∃ b ∈ u.N, b ≠ 0xff) →
      ends { u with
        N := next, H := h, J0 := j0, c := j0 + 1, msgSize := 0, tail := false, tag := tag
        X := if u.aadKept then ghashSeg h 0 u.aadStore else 0
        aadSize := if u.aadKept then BitVec.ofNat 64 u.aadStore.length else 0
        phase := if u.aadKept then .aadLoaded else .ready
        guardValid := true, guardKey := u.key, guardN := next } tag) ∧
    (u.phase ∈ [.ready, .aadLoaded, .transforming] → u.autoInc = true → (∀ b ∈ u.N, b = 0xff) →
      exec (.gcmFinal base offset tagLen) s = .next (raiseError .gcm .nonceWrap s))) ∧
  (∀ (base offset : Word) (tagLen : Byte) (s : State), s.gcm.phase ≠ .uninit →
    (tagLen.toNat < 12 ∨ 16 < tagLen.toNat → raises (.gcmFinal base offset tagLen) s .tagLen) ∧
    (12 ≤ tagLen.toNat → tagLen.toNat ≤ 16 → s.cfg.dmemSize < base.toNat + offset.toNat + tagLen.toNat →
      raises (.gcmFinal base offset tagLen) s .dstRange))

/-- GCM.VERIFY: VOK and RESULT say whether the first bytes of the tag equal the bytes at the effective address; the
unit goes where GCM.FINAL takes it, whatever the verdict; no byte of DMEM changes. An illegal tag length, a range
outside DMEM and a nonce that cannot be advanced are errors, in this order (R249, R250, R404). -/
def Obligations.GcmVerifyEffect : Prop :=
  (∀ (base offset : Word) (tagLen : Byte) (s : State), s.gcm.phase ≠ .uninit → s.gcm.enc = false →
    12 ≤ tagLen.toNat → tagLen.toNat ≤ 16 → base.toNat + offset.toNat + tagLen.toNat ≤ s.cfg.dmemSize →
    (s.gcm.phase = .finalized ∨ s.gcm.autoInc = false ∨ ∃ b ∈ s.gcm.N, b ≠ 0xff) →
    let tag := if s.gcm.phase = .finalized then s.gcm.tag
      else aes s.gcm.key s.gcm.J0 ^^^ ghashFin s.gcm.H s.gcm.X s.gcm.aadSize.toNat s.gcm.msgSize.toNat
    let ok := decide ((blockBytes tag).take tagLen.toNat =
      s.dmem.readBytes (base.toNat + offset.toNat) tagLen.toNat)
    ∃ t, exec (.gcmVerify base offset tagLen) s = .next t ∧
      t = { s with gcm := t.gcm, result := if ok then 1 else 0, status := s.status.ended ok } ∧
      ∃ t', exec (.gcmFinal base offset tagLen) s = .next t' ∧ t.gcm = t'.gcm) ∧
  (∀ (base offset : Word) (tagLen : Byte) (s : State), s.gcm.phase ≠ .uninit → s.gcm.enc = false →
    (tagLen.toNat < 12 ∨ 16 < tagLen.toNat → raises (.gcmVerify base offset tagLen) s .tagLen) ∧
    (12 ≤ tagLen.toNat → tagLen.toNat ≤ 16 →
      (s.cfg.dmemSize < base.toNat + offset.toNat + tagLen.toNat →
        raises (.gcmVerify base offset tagLen) s .srcRange) ∧
      (base.toNat + offset.toNat + tagLen.toNat ≤ s.cfg.dmemSize → s.gcm.phase ≠ .finalized →
        s.gcm.autoInc = true → (∀ b ∈ s.gcm.N, b = 0xff) → raises (.gcmVerify base offset tagLen) s .nonceWrap)))

/-- The transitions of unit GCM that the lifecycle refuses, whatever the operands, and those it allows (R232). -/
def Obligations.GcmTransitions : Prop :=
  ∀ (s t : State) (a b n : Word) (tl : Byte) (e ai ka : Bool),
    (s.gcm.phase = .aadLoaded ∨ s.gcm.phase = .transforming →
      exec (.gcmAad a n) s = .next (raiseError .gcm .aadOrder s)) ∧
    (s.gcm.phase = .finalized → exec (.gcmAad a n) s = .next (raiseError .gcm .afterFinalize s) ∧
      exec (.gcmXform a b n) s = .next (raiseError .gcm .afterFinalize s)) ∧
    (s.gcm.phase ≠ .uninit → s.gcm.phase ≠ .finalized → s.gcm.tail = true →
      exec (.gcmXform a b n) s = .next (raiseError .gcm .afterTail s)) ∧
    (s.gcm.phase ≠ .uninit → s.gcm.enc = true →
      exec (.gcmVerify a b tl) s = .next (raiseError .gcm .verifyEncrypt s)) ∧
    (exec (.gcmInit e ai ka a n) s = .next t → t.status.err = false → t.gcm.phase = .ready) ∧
    (exec (.gcmAad a n) s = .next t → t.status.err = false → s.gcm.phase = .ready ∧ t.gcm.phase = .aadLoaded) ∧
    (exec (.gcmXform a b n) s = .next t → t.status.err = false → t.gcm.phase = .transforming) ∧
    (exec (.gcmFinal a b tl) s = .next t ∨ exec (.gcmVerify a b tl) s = .next t → t.status.err = false →
      t.gcm.phase = if s.gcm.phase = .finalized ∨ s.gcm.autoInc = false then .finalized
        else if s.gcm.aadKept then .aadLoaded else .ready) ∧
    (exec .gcmDestroy s = .next t → t.gcm.phase = .uninit)

/-- Encrypting and then decrypting with the same key, nonce and associated data gives the plaintext back, and the tag
of the encryption verifies, at every legal tag length (R253). -/
def Obligations.GcmRoundTrip : Prop :=
  ∀ (key nonce aad p : Bytes) (autoInc keepAd : Bool) (n : Nat), n ≤ 16 →
    let e := ((GcmUnit.reset.init true autoInc keepAd ⟨key, nonce, []⟩).absorbAad aad).xform p
    let d := ((GcmUnit.reset.init false autoInc keepAd ⟨key, nonce, []⟩).absorbAad aad).xform e.2
    d.2 = p ∧ d.1 = { e.1 with enc := false } ∧
      tagEqual (blockBytes d.1.takeTag.2) ((blockBytes e.1.takeTag.2).take n) n = true

/-- The next nonce of AUTOINC: one more as a big-endian number of the same length, and never the guard's
(R233, R247). -/
def Obligations.AutoIncrementNonce : Prop :=
  ∀ nonce : Bytes, (incNonce nonce).length = nonce.length ∧
    ((∃ b ∈ nonce, b ≠ 0xff) → beNat (incNonce nonce) = beNat nonce + 1 ∧ incNonce nonce ≠ nonce)

/-! ### Unit DG -/

/-- DG.INIT with a legal record in DMEM: an empty message in every leaf; an illegal fanout or a digest length that is
not 64 is an error; all checks of the record in their order, the first failure is raised (R283, R284, R288, R289). -/
def Obligations.DgInitEffect : Prop :=
  (∀ (alg : HashAlg) (addr len : Word) (s : State) (prm : DgPrm) (key : Bytes),
    holds s addr len (recordBytes prm key) →
    let fanoutOk := prm.fanout.toNat = 1 ∨
      (2 ≤ prm.fanout.toNat ∧ prm.fanout.toNat % 2 = 0 ∧ prm.fanout.toNat ≤ s.cfg.nproc)
    let keyOk := key.length = prm.keyLen.toNat ∧ key.length ≤ 64 ∧ (alg = .keccak → key = [])
    (prm.digestLen = 64 → keyOk → fanoutOk → prm.leafLen.toNat % (if alg = .blake2b then 128 else 72) = 0 →
      (alg = .keccak → prm.fanout = 1 →
        prm.depth = 1 ∧ prm.leafLen = 0 ∧ prm.innerLen = 0 ∧ prm.threadCount = 0) →
      exec (.dgInit alg addr len) s = .next
        { s with
          dg := { phase := .ready, alg := alg, prm := prm, key := key, buf := [],
                  leaves := (List.range prm.fanout.toNat).map fun i =>
                    match alg with
                    | .blake2b => { h := b2Init (dgPB64 prm i 0), t := 0, f0 := 0, f1 := 0, A := lanesZero }
                    | .keccak =>
                      { h := Vector.replicate 8 0, t := 0, f0 := 0, f1 := 0,
                        A := if prm.fanout = 1 then lanesZero else keccakAbsorb lanesZero (dgPB72 prm i 0) } }
          result := 0, status := s.status.ended false }) ∧
    (prm.digestLen = 64 → keyOk → ¬ fanoutOk →
      exec (.dgInit alg addr len) s = .next
        { s with dg := DgUnit.reset, result := 0, status := s.status.raised .dg .parDegree }) ∧
    (prm.digestLen ≠ 64 →
      exec (.dgInit alg addr len) s = .next
        { s with dg := DgUnit.reset, result := 0, status := s.status.raised .dg .dgDigestLen })) ∧
  (∀ (alg : HashAlg) (addr len : Word) (s : State),
    let r := s.dmem.readBytes addr.toNat len.toNat
    let byte := fun i => (r.getD i 0).toNat
    let leafLen := leNat (slice r 4 8)
    ∀ c, (if ¬ inDmem s addr.toNat len.toNat then some Cause.srcRange
      else if len.toNat < 19 then some .containerLen
      else if byte 0 ≠ 64 then some .dgDigestLen
      else if 64 < byte 1 ∨ (alg = .keccak ∧ byte 1 ≠ 0) then some .keyLen
      else if len.toNat ≠ 19 + byte 1 then some .containerLen
      else if byte 2 ≠ 1 ∧ (byte 2 < 2 ∨ byte 2 % 2 = 1 ∨ s.cfg.nproc < byte 2) then some .parDegree
      else if leafLen % (if alg = .blake2b then 128 else 72) ≠ 0 then some .dgLeafLen
      else if leNat (slice r 8 16) ≠ 0 ∨ byte 16 ≠ 0 then some .dgNode
      else if alg = .keccak ∧ byte 2 = 1 ∧ (byte 3 ≠ 1 ∨ leafLen ≠ 0 ∨ byte 17 ≠ 0 ∨ byte 18 ≠ 0) then some .dgSeqParams
      else none) = some c → raises (.dgInit alg addr len) s c)

/-- DG.UPDATE appends its bytes to the message: nothing but unit DG changes, and the state after two updates depends
only on the concatenation of their bytes (R291, R299). -/
def Obligations.DgUpdateEffect : Prop :=
  (∀ (src len : Word) (s : State), s.dg.phase = .ready →
    (len.toNat = 0 ∨ src.toNat + len.toNat ≤ s.cfg.dmemSize →
      exec (.dgUpdate src len) s = .next
        { s with dg := s.dg.update (s.dmem.readBytes src.toNat len.toNat), result := 0,
                 status := s.status.ended false }) ∧
    (¬ (len.toNat = 0 ∨ src.toNat + len.toNat ≤ s.cfg.dmemSize) →
      exec (.dgUpdate src len) s = .next
        { s with dg := DgUnit.reset, result := 0, status := s.status.raised .dg .srcRange })) ∧
  (∀ (p : Params) (u : DgUnit) (a b : Bytes), u.started p → u.update (a ++ b) = (u.update a).update b)

/-- DG.FINAL writes the digest and starts an empty message, DG.RESET starts one, DG.COMPUTE is DG.UPDATE followed by
DG.FINAL; their range errors (R292, R296, R297). -/
def Obligations.DgFinalResetCompute : Prop :=
  (∀ (dst : Word) (s : State), s.dmem.wf → s.dg.phase = .ready → dst.toNat + 64 ≤ s.cfg.dmemSize →
    ∃ t, exec (.dgFinal dst) s = .next t ∧
      t = { s with dg := s.dg.start, dmem := t.dmem, result := 0, status := s.status.ended false } ∧
      wrote s t dst.toNat s.dg.digest) ∧
  (∀ s : State, s.dg.phase = .ready →
    exec .dgReset s = .next { s with dg := s.dg.start, result := 0, status := s.status.ended false }) ∧
  (∀ (src dst len : Word) (s : State), s.dmem.wf → s.dg.phase = .ready →
    len.toNat = 0 ∨ src.toNat + len.toNat ≤ s.cfg.dmemSize → dst.toNat + 64 ≤ s.cfg.dmemSize →
    ∃ m t, exec (.dgUpdate src len) s = .next m ∧ exec (.dgFinal dst) m = .next t ∧ t.status.err = false ∧
      exec (.dgCompute src dst len) s = .next t) ∧
  (∀ (src dst len : Word) (s : State), s.dg.phase = .ready →
    (s.cfg.dmemSize < dst.toNat + 64 → raises (.dgFinal dst) s .dstRange) ∧
    (¬ inDmem s src.toNat len.toNat → raises (.dgCompute src dst len) s .srcRange) ∧
    (inDmem s src.toNat len.toNat → s.cfg.dmemSize < dst.toNat + 64 → raises (.dgCompute src dst len) s .dstRange))

/-- The streaming commands compute the digest of the message: from the start of a message, any bytes given to the unit
and then DG.FINAL give `DgDigest` of R287 (R299). The bound on the message keeps the byte count of a leaf from
wrapping (R290, R408). -/
def Obligations.DgStreamingIsDigest : Prop :=
  ∀ (p : Params) (u : DgUnit) (m : Bytes), u.started p → m.length < 2 ^ 64 →
    (u.start.update m).digest = dgDigest u.alg u.prm u.key m

/-! ### Unit SS -/

/-- SS.INIT with a legal round count and container: the sixteen words of R332 with counter 0; an illegal round count
is an error whatever the other operands are; the checks in their order, the first failure is raised (R96, R330 to
R333, R340). -/
def Obligations.SsInitEffect : Prop :=
  (∀ (rounds : Byte) (kc len : Word) (s : State) (key nonce info : Bytes),
    let roundsOk := 8 ≤ rounds.toNat ∧ rounds.toNat ≤ 30 ∧ rounds.toNat % 2 = 0
    (roundsOk → key.length = 16 ∨ key.length = 32 → nonce.length = 8 → info.length = 0 ∨ info.length = 16 →
      holds s kc len (containerBytes key nonce info) →
      let const := if info.length = 16 then info else if key.length = 32 then ssSigma else ssTau
      let c := fun i => le32 (slice const (4 * i) (4 * i + 4))
      let k := fun i => le32 (slice key (4 * (i % (key.length / 4))) (4 * (i % (key.length / 4)) + 4))
      let n := fun i => le32 (slice nonce (4 * i) (4 * i + 4))
      exec (.ssInit rounds kc len) s = .next
        { s with
          ss := { phase := .ready, rounds := rounds, par := s.ss.par,
                  s := #v[c 0, k 0, k 1, k 2, k 3, c 1, n 0, n 1, 0, 0, c 2, k 4, k 5, k 6, k 7, c 3] }
          result := 0, status := s.status.ended false }) ∧
    (¬ roundsOk → exec (.ssInit rounds kc len) s = .next
      { s with ss := { SsUnit.reset with par := s.ss.par }, result := 0, status := s.status.raised .ss .rounds })) ∧
  (∀ (rounds : Byte) (kc len : Word) (s : State),
    let v := s.dmem.readBytes kc.toNat len.toNat
    let k := parseContainer v
    ∀ c, (if rounds.toNat < 8 ∨ 30 < rounds.toNat ∨ rounds.toNat % 2 = 1 then some Cause.rounds
      else if ¬ inDmem s kc.toNat len.toNat then some .srcRange
      else if containerMisfit v then some .containerLen
      else if k.key.length ∉ [16, 32] then some .keyLen
      else if k.nonce.length ≠ 8 then some .nonceLen
      else if k.info.length ∉ [0, 16] then some .infoLen
      else none) = some c → raises (.ssInit rounds kc len) s c)

/-- SS.XFORM in phase Ready with ranges in DMEM that are equal or disjoint: byte k of the destination is byte k of the
source as it was before XOR byte k of the keystream, no other byte of DMEM changes, and the counter advances by the
number of started blocks (R334 to R337); SRC_RANGE, DST_RANGE and OVERLAP are raised in this order (R83 to R85). -/
def Obligations.SsXformEffect : Prop :=
  ∀ (src dst len : Word) (s : State), s.ss.phase = .ready →
    (s.dmem.wf →
    (len.toNat = 0 ∨ (src.toNat + len.toNat ≤ s.cfg.dmemSize ∧ dst.toNat + len.toNat ≤ s.cfg.dmemSize ∧
      (src = dst ∨ src.toNat + len.toNat ≤ dst.toNat ∨ dst.toNat + len.toNat ≤ src.toNat))) →
    ∃ t, exec (.ssXform src dst len) s = .next t ∧
      t = { s with
        ss := { s.ss with s := ssAdvance s.ss.s ((len.toNat + 63) / 64) }, dmem := t.dmem, result := 0,
        status := s.status.ended false } ∧
      ∀ b, t.dmem.readByte b =
        if dst.toNat ≤ b ∧ b < dst.toNat + len.toNat then
          s.dmem.readByte (src.toNat + (b - dst.toNat)) ^^^ ssKeystreamByte s.ss.rounds s.ss.s (b - dst.toNat)
        else s.dmem.readByte b) ∧
    ∀ c, xformError s src.toNat dst.toNat len.toNat = some c → raises (.ssXform src dst len) s c

/-! ### Units JENT and DRBG -/

/-- The commands of unit JENT: N draws at the destination and no other byte of DMEM, one draw in RESULT, the
availability in RESULT; unavailable, the first two raise JENT_UNAVAILABLE, also when N is 0; a destination outside
DMEM is an error when it is available (R354, R355, R356). Which free values the draws are is the model's form (log 8).
-/
def Obligations.JentCommands : Prop :=
  ∀ (dst len : Word) (s : State), s.dmem.wf →
    (s.jent.available = true → len.toNat = 0 ∨ dst.toNat + len.toNat ≤ s.cfg.dmemSize →
      ∃ t, exec (.jentGet dst len) s = .next t ∧
        t = { s with jent := t.jent, dmem := t.dmem, draws := t.draws, result := 0,
                     status := s.status.ended false } ∧
        t.jent.available = true ∧ s.draws + len.toNat ≤ t.draws ∧
        wrote s t dst.toNat ((List.range len.toNat).map fun k => Config.jentByte (s.draws + k))) ∧
    (s.jent.available = true →
      ∃ t, exec .jentNext s = .next t ∧ t.jent.available = true ∧ s.draws < t.draws ∧
        t = { s with jent := t.jent, draws := t.draws, result := Config.jentWord s.draws,
                     status := s.status.ended false }) ∧
    (s.jent.available = true → ¬ inDmem s dst.toNat len.toNat →
      exec (.jentGet dst len) s = .next { s with result := 0, status := s.status.raised .jent .dstRange }) ∧
    (s.jent.available = false → ∀ i ∈ [Instr.jentGet dst len, .jentNext],
      exec i s = .next { s with result := 0, status := s.status.raised .jent .jentUnavailable }) ∧
    exec .jentAvail s = .next
      { s with result := if s.jent.available then 1 else 0, status := s.status.ended false }

/-- DRBG.INIT and DRBG.RESET: the seed, and a buffer full of the first bytes of its stream; without unit JENT a reset
is an error of unit DRBG (R361, R362, R364, R367). Which free values the seed of a reset is, is the model's form (log
8); that a reset leaves the internal state of unit JENT as it is, is the model's inference from R42 and R352 (log 10).
-/
def Obligations.DrbgInitAndReset : Prop :=
  (∀ (kind : BitVec 2) (seed len : Word) (s : State), kind ≠ 3 → seed.toNat + len.toNat ≤ s.cfg.dmemSize →
    let least := if kind = 0 then 72 else if kind = 1 then 80 else s.cfg.drbgMinSeedCipher
    (least ≤ len.toNat → ∃ t, exec (.drbgInit kind seed len) s = .next t ∧
      t = { s with drbg := t.drbg, result := 0, status := s.status.ended false } ∧ t.drbg.phase = .ready ∧
      t.drbg.kind = kind ∧ t.drbg.seed = s.dmem.readBytes seed.toNat len.toNat ∧ t.drbg.idx = 0 ∧
      t.drbg.onStream s.cfg.drbgBuf (Config.drbgSeed kind t.drbg.seed)) ∧
    (len.toNat < least → exec (.drbgInit kind seed len) s = .next
      { s with drbg := DrbgUnit.reset s.cfg, result := 0, status := s.status.raised .drbg .seedLen })) ∧
  (∀ (kind : BitVec 2) (seed len : Word) (s : State), kind ≠ 3 → ¬ inDmem s seed.toNat len.toNat →
    raises (.drbgInit kind seed len) s .srcRange) ∧
  (∀ (seed len : Word) (s : State), exec (.drbgInit 3 seed len) s = .next
    { s with drbg := DrbgUnit.reset s.cfg, result := 0, status := s.status.raised .drbg .drbgKind }) ∧
  (∀ s : State, s.drbg.phase = .ready →
    let least := if s.drbg.kind = 0 then 72 else if s.drbg.kind = 1 then 80 else s.cfg.drbgMinSeedCipher
    (s.cfg.hasJent = true → s.jent.available = true → ∃ t, exec .drbgReset s = .next t ∧
      t = { s with drbg := t.drbg, draws := t.draws, result := 0, status := s.status.ended false } ∧
      t.drbg.phase = .ready ∧ t.drbg.kind = s.drbg.kind ∧ s.draws + least ≤ t.draws ∧
      t.drbg.seed = ((List.range least).map fun k => Config.jentByte (s.draws + k)) ∧ t.drbg.idx = 0 ∧
      t.drbg.onStream s.cfg.drbgBuf (Config.drbgSeed s.drbg.kind t.drbg.seed)) ∧
    (s.cfg.hasJent = false ∨ s.jent.available = false → exec .drbgReset s = .next
      { s with drbg := DrbgUnit.reset s.cfg, result := 0, status := s.status.raised .drbg .jentUnavailable }))

/-- DRBG.GEN in phase Ready with its range in DMEM ends without an error and changes nothing but the unit and its
range of DMEM; when the unit stands in the stream from a generator state `g`, the bytes delivered are the next bytes
of that stream, and the unit stands after them in the same stream; a destination outside DMEM is an error (R363,
R368). -/
def Obligations.DrbgGenStream : Prop :=
  (∀ (dst len : Word) (s : State), s.dmem.wf → s.drbg.phase = .ready →
    len.toNat = 0 ∨ dst.toNat + len.toNat ≤ s.cfg.dmemSize →
    let stream := drbgStreamByte s.drbg.kind s.cfg.drbgBuf
    ∃ t, exec (.drbgGen dst len) s = .next t ∧
      t = { s with drbg := t.drbg, dmem := t.dmem, result := 0, status := s.status.ended false } ∧
      t.drbg.phase = .ready ∧ t.drbg.kind = s.drbg.kind ∧ t.drbg.seed = s.drbg.seed ∧
      (∀ b, b < dst.toNat ∨ dst.toNat + len.toNat ≤ b → t.dmem.readByte b = s.dmem.readByte b) ∧
      ∀ g, 0 < s.cfg.drbgBuf → s.drbg.onStream s.cfg.drbgBuf g →
        wrote s t dst.toNat ((List.range len.toNat).map fun k => stream g (s.drbg.idx + k)) ∧
        ∃ g', t.drbg.onStream s.cfg.drbgBuf g' ∧
          ∀ k, stream g (s.drbg.idx + len.toNat + k) = stream g' (t.drbg.idx + k)) ∧
  (∀ (dst len : Word) (s : State), s.drbg.phase = .ready → ¬ inDmem s dst.toNat len.toNat →
    raises (.drbgGen dst len) s .dstRange)

end
end

