-- ==== Sys2Proof/Laws/Bytes.lean ====
section
/-! SUPPORT. Lengths and round trips of byte strings. -/

namespace Sys2Proof.Machine

@[simp] theorem zeros_length (n : Nat) : (zeros n).length = n := by simp [zeros]

@[simp] theorem leBytes_length (n v : Nat) : (leBytes n v).length = n := by
  induction n generalizing v with
  | zero => rfl
  | succ n ih => simp [leBytes, ih]

@[simp] theorem beBytes_length (n v : Nat) : (beBytes n v).length = n := by simp [beBytes]

@[simp] theorem blockBytes_length (b : Block) : (blockBytes b).length = 16 := by simp [blockBytes]

@[simp] theorem drawBytes_length (f : Nat → Byte) (n : Nat) : (drawBytes f n).length = n := by simp [drawBytes]

@[simp] theorem xorBytes_length (s t : Bytes) : (xorBytes s t).length = min s.length t.length := by simp [xorBytes]

theorem slice_length (s : Bytes) (a b : Nat) : (slice s a b).length = min (b - a) (s.length - a) := by
  simp [slice]

theorem padTo_length (n : Nat) (s : Bytes) : (padTo n s).length = max n s.length := by
  simp only [padTo, List.length_append, zeros_length]
  omega

/-- `LE(le_n(v)) = v mod 256^n` (R18). -/
theorem leNat_leBytes (n v : Nat) : leNat (leBytes n v) = v % 256 ^ n := by
  induction n generalizing v with
  | zero => simp [leBytes, leNat, Nat.mod_one]
  | succ n ih =>
    simp only [leBytes, leNat, ih, BitVec.toNat_ofNat]
    rw [show (256 : Nat) ^ (n + 1) = 256 * 256 ^ n from Nat.pow_succ', Nat.mod_mul (a := 256)]

/-- `LE(s) < 256^len(s)` (R18). -/
theorem leNat_lt (s : Bytes) : leNat s < 256 ^ s.length := by
  induction s with
  | nil => simp [leNat]
  | cons b s ih =>
    have hb := b.isLt
    simp only [leNat, List.length_cons, Nat.pow_succ]
    omega

/-- `le_n(LE(s)) = s` for a string of n bytes (R18). -/
theorem leBytes_leNat (s : Bytes) : leBytes s.length (leNat s) = s := by
  induction s with
  | nil => rfl
  | cons b s ih =>
    have hb := b.isLt
    have h1 : (b.toNat + 256 * leNat s) / 256 = leNat s := by omega
    simp only [leNat, List.length_cons, leBytes, h1, ih, List.cons.injEq, and_true]
    apply BitVec.eq_of_toNat_eq
    rw [BitVec.toNat_ofNat]
    omega

/-- `BE(be_n(v)) = v mod 256^n` (R18). -/
theorem beNat_beBytes (n v : Nat) : beNat (beBytes n v) = v % 256 ^ n := by
  simp [beNat, beBytes, leNat_leBytes]

/-- A block is its sixteen bytes (R19). -/
@[simp] theorem blockOfBytes_blockBytes (b : Block) : blockOfBytes (blockBytes b) = b := by
  have h := b.isLt
  apply BitVec.eq_of_toNat_eq
  rw [blockOfBytes, blockBytes, beNat_beBytes, BitVec.toNat_ofNat]
  omega

/-- The sixteen bytes of a block that was read from a string of sixteen bytes. -/
theorem blockBytes_blockOfBytes (s : Bytes) (h : s.length = 16) : blockBytes (blockOfBytes s) = s := by
  have h1 : leNat s.reverse < 2 ^ 128 := by
    have := leNat_lt s.reverse
    rw [List.length_reverse, h] at this
    norm_num at this ⊢
    exact this
  rw [blockBytes, blockOfBytes, BitVec.toNat_ofNat, beBytes, beNat, Nat.mod_eq_of_lt h1]
  have h2 := leBytes_leNat s.reverse
  rw [List.length_reverse, h] at h2
  rw [h2, List.reverse_reverse]

/-- The pieces of a string, joined, are the string. -/
theorem chunksFuel_flatten {k : Nat} (hk : 0 < k) (f : Nat) (s : Bytes) (hf : s.length ≤ f) :
    (chunksFuel k f s).flatten = s := by
  induction f generalizing s with
  | zero =>
    have : s = [] := List.length_eq_zero_iff.mp (by omega)
    simp [this, chunksFuel]
  | succ f ih =>
    unfold chunksFuel
    by_cases hs : s.isEmpty
    · simp [List.isEmpty_iff.mp hs]
    · have hne : s ≠ [] := fun h => hs (by simp [h])
      have hpos : 0 < s.length := List.length_pos_iff.mpr hne
      simp only [hs, if_false, List.flatten_cons, Bool.false_eq_true]
      rw [ih (s.drop k) (by rw [List.length_drop]; omega), List.take_append_drop]

/-- The pieces of a string, joined, are the string. -/
theorem chunks_flatten {k : Nat} (hk : 0 < k) (s : Bytes) : (chunks k s).flatten = s :=
  chunksFuel_flatten hk s.length s (Nat.le_refl _)

/-- A piece has at most `k` bytes and is not empty. -/
theorem chunksFuel_mem {k : Nat} (hk : 0 < k) (f : Nat) (s : Bytes) {b : Bytes} (hb : b ∈ chunksFuel k f s) :
    b.length ≤ k ∧ b ≠ [] := by
  induction f generalizing s with
  | zero => simp [chunksFuel] at hb
  | succ f ih =>
    unfold chunksFuel at hb
    by_cases hs : s.isEmpty
    · simp [hs] at hb
    · simp only [hs, if_false, Bool.false_eq_true] at hb
      rcases List.mem_cons.mp hb with rfl | hb
      · have hne : s ≠ [] := fun h => hs (by simp [h])
        have hpos : 0 < s.length := List.length_pos_iff.mpr hne
        refine ⟨by rw [List.length_take]; omega, fun h => ?_⟩
        have := congrArg List.length h
        rw [List.length_take, List.length_nil] at this
        omega
      · exact ih _ hb

/-- A piece has at most `k` bytes and is not empty. -/
theorem chunks_mem {k : Nat} (hk : 0 < k) (s : Bytes) {b : Bytes} (hb : b ∈ chunks k s) :
    b.length ≤ k ∧ b ≠ [] := chunksFuel_mem hk s.length s hb

/-- A flat map of strings that all have `k` bytes. -/
theorem flatMap_length_const {α : Type} (l : List α) (f : α → Bytes) (k : Nat) (h : ∀ x ∈ l, (f x).length = k) :
    (l.flatMap f).length = l.length * k := by
  induction l with
  | nil => simp
  | cons x l ih =>
    rw [List.flatMap_cons, List.length_append, h x (by simp), ih fun y hy => h y (List.mem_cons_of_mem _ hy),
      List.length_cons]
    ring

@[simp] theorem chainBytes_length (h : Chain) : (chainBytes h).length = 64 := by
  rw [chainBytes, flatMap_length_const _ _ 8 (fun _ _ => leBytes_length 8 _)]
  simp

@[simp] theorem keccakDigest_length (a : Lanes) (rem : Bytes) : (keccakDigest a rem).length = 64 := by
  rw [keccakDigest, flatMap_length_const _ _ 8 (fun _ _ => leBytes_length 8 _)]
  simp

@[simp] theorem salsaBlock_length (s : SalsaWords) (r : Nat) : (salsaBlock s r).length = 64 := by
  rw [salsaBlock, flatMap_length_const _ _ 4 (fun _ _ => leBytes_length 4 _)]
  simp

@[simp] theorem b2Hash_length (pb key msg : Bytes) (ln : Bool) : (b2Hash pb key msg ln).length = 64 := by
  simp [b2Hash]

@[simp] theorem keccak512_length (msg : Bytes) : (keccak512 msg).length = 64 := by simp [keccak512]

end Sys2Proof.Machine
end

