-- ==== Sys2Proof/Laws/Memory.lean ====
section
/-! SUPPORT. The laws of the byte store: reading after writing, and the canonical form. -/

namespace Sys2Proof.Machine

@[simp] theorem Memory.readByte_nil (a : Nat) : Memory.readByte [] a = Memory.unlisted := rfl

/-- A store whose addresses are all above `a` reads as unlisted at `a`. -/
theorem Memory.readByte_eq_unlisted {m : Memory} {a : Nat} (h : ∀ x ∈ m, x.1 ≠ a) :
    m.readByte a = Memory.unlisted := by
  induction m with
  | nil => rfl
  | cons x m ih =>
    obtain ⟨k, b⟩ := x
    have hk : k ≠ a := h (k, b) (by simp)
    simp only [Memory.readByte, if_neg hk]
    exact ih fun y hy => h y (List.mem_cons_of_mem _ hy)

/-- What `writeByte` lists: an old entry at another address, or the new one. -/
theorem Memory.mem_writeByte {m : Memory} {a : Nat} {b : Byte} {x : Host.Cell} (h : x ∈ m.writeByte a b) :
    x ∈ m ∨ (x = (a, b) ∧ b ≠ Memory.unlisted) := by
  induction m with
  | nil =>
    unfold Memory.writeByte at h
    split at h <;> simp_all
  | cons y m ih =>
    obtain ⟨k, c⟩ := y
    unfold Memory.writeByte at h
    split at h
    · split at h
      · exact .inl h
      · rcases List.mem_cons.mp h with rfl | h
        · exact .inr ⟨rfl, ‹_›⟩
        · exact .inl h
    · split at h
      · split at h
        · exact .inl (List.mem_cons_of_mem _ h)
        · rcases List.mem_cons.mp h with rfl | h
          · exact .inr ⟨rfl, ‹_›⟩
          · exact .inl (List.mem_cons_of_mem _ h)
      · rcases List.mem_cons.mp h with rfl | h
        · simp
        · rcases ih h with h | h
          · exact .inl (List.mem_cons_of_mem _ h)
          · exact .inr h

/-- Writing a byte keeps the canonical form. -/
theorem Memory.writeByte_wf {m : Memory} (a : Nat) (b : Byte) (h : m.wf) : (m.writeByte a b).wf := by
  induction m with
  | nil =>
    unfold Memory.writeByte
    split <;> simp_all [Memory.wf]
  | cons y m ih =>
    obtain ⟨k, c⟩ := y
    obtain ⟨hp, hu⟩ := h
    have hp' := List.pairwise_cons.mp hp
    have hm : Memory.wf m := ⟨hp'.2, fun x hx => hu x (List.mem_cons_of_mem _ hx)⟩
    unfold Memory.writeByte
    split
    · rename_i hak
      split
      · exact ⟨hp, hu⟩
      · rename_i hb
        refine ⟨List.pairwise_cons.mpr ⟨fun x hx => ?_, hp⟩, fun x hx => ?_⟩
        · rcases List.mem_cons.mp hx with rfl | hx
          · exact hak
          · exact Nat.lt_trans hak (hp'.1 x hx)
        · rcases List.mem_cons.mp hx with rfl | hx
          · exact hb
          · exact hu x hx
    · split
      · rename_i hak
        subst hak
        split
        · exact hm
        · rename_i hb
          refine ⟨List.pairwise_cons.mpr ⟨fun x hx => hp'.1 x hx, hp'.2⟩, fun x hx => ?_⟩
          rcases List.mem_cons.mp hx with rfl | hx
          · exact hb
          · exact hu x (List.mem_cons_of_mem _ hx)
      · rename_i h1 h2
        have hi := ih hm
        refine ⟨List.pairwise_cons.mpr ⟨fun x hx => ?_, hi.1⟩, fun x hx => ?_⟩
        · rcases Memory.mem_writeByte hx with hx | ⟨rfl, -⟩
          · exact hp'.1 x hx
          · show k < a
            omega
        · rcases List.mem_cons.mp hx with rfl | hx
          · exact hu (k, c) (by simp)
          · exact hi.2 x hx

/-- Reading after writing one byte. -/
theorem Memory.readByte_writeByte {m : Memory} (h : m.wf) (a : Nat) (b : Byte) (x : Nat) :
    (m.writeByte a b).readByte x = if x = a then b else m.readByte x := by
  induction m with
  | nil =>
    unfold Memory.writeByte
    by_cases hb : b = Memory.unlisted
    · by_cases hx : x = a <;> simp [hb, hx]
    · by_cases hx : x = a
      · simp [hb, hx, Memory.readByte]
      · simp [hb, hx, Memory.readByte, Ne.symm hx]
  | cons y m ih =>
    obtain ⟨k, c⟩ := y
    have hp' := List.pairwise_cons.mp h.1
    have hm : Memory.wf m := ⟨hp'.2, fun z hz => h.2 z (List.mem_cons_of_mem _ hz)⟩
    have upTo : ∀ z, z ≤ k → Memory.readByte m z = Memory.unlisted := fun z hz =>
      Memory.readByte_eq_unlisted fun w hw => by
        have := hp'.1 w hw
        change k < w.1 at this
        omega
    unfold Memory.writeByte
    split
    · rename_i hak
      split
      · rename_i hb
        by_cases hx : x = a
        · subst hx
          have hkx : ¬ k = x := by omega
          simp only [Memory.readByte, if_neg hkx, if_true, hb]
          exact upTo x (by omega)
        · simp [hx]
      · by_cases hx : x = a
        · simp [hx, Memory.readByte]
        · simp [hx, Memory.readByte, Ne.symm hx]
    · split
      · rename_i hak
        subst hak
        split
        · rename_i hb
          by_cases hx : x = a
          · simp only [hx, if_true, hb]
            exact upTo a (Nat.le_refl a)
          · simp [hx, Memory.readByte, Ne.symm hx]
        · by_cases hx : x = a
          · simp [hx, Memory.readByte]
          · simp [hx, Memory.readByte, Ne.symm hx]
      · rename_i h1 h2
        simp only [Memory.readByte]
        by_cases hx : k = x
        · subst hx
          have : ¬ k = a := by omega
          simp [this]
        · simp only [if_neg hx]
          exact ih hm

/-- Writing a string keeps the canonical form. -/
theorem Memory.writeBytes_wf {m : Memory} (a : Nat) (v : Bytes) (h : m.wf) : (m.writeBytes a v).wf := by
  induction v generalizing m a with
  | nil => exact h
  | cons b v ih => exact ih (a + 1) (Memory.writeByte_wf a b h)

/-- Reading after writing a string: the string inside its range, the old byte outside (R21). -/
theorem Memory.readByte_writeBytes {m : Memory} (h : m.wf) (a : Nat) (v : Bytes) (x : Nat) :
    (m.writeBytes a v).readByte x = if a ≤ x ∧ x < a + v.length then v.getD (x - a) 0 else m.readByte x := by
  induction v generalizing m a with
  | nil =>
    have : ¬ (a ≤ x ∧ x < a + 0) := by omega
    simp only [List.length_nil, if_neg this]
    rfl
  | cons b v ih =>
    simp only [Memory.writeBytes, ih (Memory.writeByte_wf a b h), Memory.readByte_writeByte h, List.length_cons]
    by_cases h1 : x = a
    · subst h1
      have e1 : ¬ (x + 1 ≤ x ∧ x < x + 1 + v.length) := by omega
      have e2 : x ≤ x ∧ x < x + (v.length + 1) := by omega
      rw [if_neg e1, if_pos e2]
      simp
    · by_cases h2 : a + 1 ≤ x ∧ x < a + 1 + v.length
      · have e2 : a ≤ x ∧ x < a + (v.length + 1) := by omega
        rw [if_pos h2, if_pos e2]
        have : x - a = (x - (a + 1)) + 1 := by omega
        rw [this, List.getD_cons_succ]
      · have e2 : ¬ (a ≤ x ∧ x < a + (v.length + 1)) := by omega
        rw [if_neg h2, if_neg e2, if_neg h1]

/-- A write inside the bound lists no byte outside it. -/
theorem Memory.writeByte_below {m : Memory} {a n : Nat} {b : Byte} (h : m.below n) (ha : a < n) :
    (m.writeByte a b).below n := fun x hx => by
  rcases Memory.mem_writeByte hx with hx | ⟨rfl, -⟩
  · exact h x hx
  · exact ha

/-- A write of a string inside the bound lists no byte outside it. -/
theorem Memory.writeBytes_below {m : Memory} {a n : Nat} {v : Bytes} (h : m.below n)
    (ha : v = [] ∨ a + v.length ≤ n) : (m.writeBytes a v).below n := by
  induction v generalizing m a with
  | nil => exact h
  | cons b v ih =>
    have ha' : a + (v.length + 1) ≤ n := by simpa using ha
    refine ih (Memory.writeByte_below h (by omega)) (.inr (by omega))

@[simp] theorem Memory.readBytes_length (m : Memory) (a n : Nat) : (m.readBytes a n).length = n := by
  simp [Memory.readBytes]

/-- Byte `i` of a string that was read. -/
theorem Memory.readBytes_getD (m : Memory) (a n i : Nat) (d : Byte) :
    (m.readBytes a n).getD i d = if i < n then m.readByte (a + i) else d := by
  unfold Memory.readBytes
  by_cases h : i < n <;> simp [h, List.getD]

/-- Reading a range depends on its bytes only. -/
theorem Memory.readBytes_congr {m m' : Memory} {a n : Nat}
    (h : ∀ i, i < n → m.readByte (a + i) = m'.readByte (a + i)) : m.readBytes a n = m'.readBytes a n := by
  unfold Memory.readBytes
  exact List.map_congr_left fun i hi => h i (List.mem_range.mp hi)

/-- An empty store is in canonical form and inside every bound: DMEM of `State.reset` among them. -/
theorem Memory.nil_wf : Memory.wf [] := ⟨List.Pairwise.nil, fun x hx => by cases hx⟩

/-- See `Memory.nil_wf`. -/
theorem Memory.nil_below (n : Nat) : Memory.below [] n := fun x hx => by cases hx

theorem Memory.reset_wf : State.reset.dmem.wf := Memory.nil_wf

end Sys2Proof.Machine
end

