-- ==== Sys2Proof/Laws/State.lean ====
section
/-! SUPPORT. What each update of the state does to each field, true by rfl, so that no proof unfolds a record update. -/

namespace Sys2Proof.Machine

/-! ### `State.storeBytes` -/

@[simp] theorem State.storeBytes_cfg (a : Nat) (v : Bytes) (s : State) : (s.storeBytes a v).cfg = s.cfg := rfl
@[simp] theorem State.storeBytes_status (a : Nat) (v : Bytes) (s : State) : (s.storeBytes a v).status = s.status := rfl
@[simp] theorem State.storeBytes_result (a : Nat) (v : Bytes) (s : State) : (s.storeBytes a v).result = s.result := rfl
@[simp] theorem State.storeBytes_desc0 (a : Nat) (v : Bytes) (s : State) : (s.storeBytes a v).desc0 = s.desc0 := rfl
@[simp] theorem State.storeBytes_desc1 (a : Nat) (v : Bytes) (s : State) : (s.storeBytes a v).desc1 = s.desc1 := rfl
@[simp] theorem State.storeBytes_desc2 (a : Nat) (v : Bytes) (s : State) : (s.storeBytes a v).desc2 = s.desc2 := rfl
@[simp] theorem State.storeBytes_desc3 (a : Nat) (v : Bytes) (s : State) : (s.storeBytes a v).desc3 = s.desc3 := rfl
@[simp] theorem State.storeBytes_gh (a : Nat) (v : Bytes) (s : State) : (s.storeBytes a v).gh = s.gh := rfl
@[simp] theorem State.storeBytes_ctr (a : Nat) (v : Bytes) (s : State) : (s.storeBytes a v).ctr = s.ctr := rfl
@[simp] theorem State.storeBytes_gcm (a : Nat) (v : Bytes) (s : State) : (s.storeBytes a v).gcm = s.gcm := rfl
@[simp] theorem State.storeBytes_dg (a : Nat) (v : Bytes) (s : State) : (s.storeBytes a v).dg = s.dg := rfl
@[simp] theorem State.storeBytes_ss (a : Nat) (v : Bytes) (s : State) : (s.storeBytes a v).ss = s.ss := rfl
@[simp] theorem State.storeBytes_jent (a : Nat) (v : Bytes) (s : State) : (s.storeBytes a v).jent = s.jent := rfl
@[simp] theorem State.storeBytes_drbg (a : Nat) (v : Bytes) (s : State) : (s.storeBytes a v).drbg = s.drbg := rfl
@[simp] theorem State.storeBytes_dmem (a : Nat) (v : Bytes) (s : State) : (s.storeBytes a v).dmem = s.dmem.writeBytes a v := rfl
@[simp] theorem State.storeBytes_inbox (a : Nat) (v : Bytes) (s : State) : (s.storeBytes a v).inbox = s.inbox := rfl
@[simp] theorem State.storeBytes_outbox (a : Nat) (v : Bytes) (s : State) : (s.storeBytes a v).outbox = s.outbox := rfl
@[simp] theorem State.storeBytes_draws (a : Nat) (v : Bytes) (s : State) : (s.storeBytes a v).draws = s.draws := rfl

/-! ### `issue` -/

@[simp] theorem issue_cfg (w : Word) (s : State) : (issue w s).cfg = s.cfg := rfl
@[simp] theorem issue_status (w : Word) (s : State) : (issue w s).status = 
      { busy := true, err := false, vok := false, fault := s.status.fault, ekind := 0, eunit := 0, ecause := 0 } := rfl
@[simp] theorem issue_result (w : Word) (s : State) : (issue w s).result = 0 := rfl
@[simp] theorem issue_desc0 (w : Word) (s : State) : (issue w s).desc0 = w := rfl
@[simp] theorem issue_desc1 (w : Word) (s : State) : (issue w s).desc1 = s.desc1 := rfl
@[simp] theorem issue_desc2 (w : Word) (s : State) : (issue w s).desc2 = s.desc2 := rfl
@[simp] theorem issue_desc3 (w : Word) (s : State) : (issue w s).desc3 = s.desc3 := rfl
@[simp] theorem issue_gh (w : Word) (s : State) : (issue w s).gh = s.gh := rfl
@[simp] theorem issue_ctr (w : Word) (s : State) : (issue w s).ctr = s.ctr := rfl
@[simp] theorem issue_gcm (w : Word) (s : State) : (issue w s).gcm = s.gcm := rfl
@[simp] theorem issue_dg (w : Word) (s : State) : (issue w s).dg = s.dg := rfl
@[simp] theorem issue_ss (w : Word) (s : State) : (issue w s).ss = s.ss := rfl
@[simp] theorem issue_jent (w : Word) (s : State) : (issue w s).jent = s.jent := rfl
@[simp] theorem issue_drbg (w : Word) (s : State) : (issue w s).drbg = s.drbg := rfl
@[simp] theorem issue_dmem (w : Word) (s : State) : (issue w s).dmem = s.dmem := rfl
@[simp] theorem issue_inbox (w : Word) (s : State) : (issue w s).inbox = s.inbox := rfl
@[simp] theorem issue_outbox (w : Word) (s : State) : (issue w s).outbox = s.outbox := rfl
@[simp] theorem issue_draws (w : Word) (s : State) : (issue w s).draws = s.draws := rfl

/-! ### `finishWith` and `finish` -/

@[simp] theorem finishWith_cfg (ok : Bool) (v : Word) (s : State) : (finishWith ok v s).cfg = s.cfg := rfl
@[simp] theorem finishWith_status (ok : Bool) (v : Word) (s : State) : (finishWith ok v s).status = 
      { busy := false, err := false, vok := ok, fault := s.status.fault, ekind := 0, eunit := 0, ecause := 0 } := rfl
@[simp] theorem finishWith_result (ok : Bool) (v : Word) (s : State) : (finishWith ok v s).result = v := rfl
@[simp] theorem finishWith_desc0 (ok : Bool) (v : Word) (s : State) : (finishWith ok v s).desc0 = s.desc0 := rfl
@[simp] theorem finishWith_desc1 (ok : Bool) (v : Word) (s : State) : (finishWith ok v s).desc1 = s.desc1 := rfl
@[simp] theorem finishWith_desc2 (ok : Bool) (v : Word) (s : State) : (finishWith ok v s).desc2 = s.desc2 := rfl
@[simp] theorem finishWith_desc3 (ok : Bool) (v : Word) (s : State) : (finishWith ok v s).desc3 = s.desc3 := rfl
@[simp] theorem finishWith_gh (ok : Bool) (v : Word) (s : State) : (finishWith ok v s).gh = s.gh := rfl
@[simp] theorem finishWith_ctr (ok : Bool) (v : Word) (s : State) : (finishWith ok v s).ctr = s.ctr := rfl
@[simp] theorem finishWith_gcm (ok : Bool) (v : Word) (s : State) : (finishWith ok v s).gcm = s.gcm := rfl
@[simp] theorem finishWith_dg (ok : Bool) (v : Word) (s : State) : (finishWith ok v s).dg = s.dg := rfl
@[simp] theorem finishWith_ss (ok : Bool) (v : Word) (s : State) : (finishWith ok v s).ss = s.ss := rfl
@[simp] theorem finishWith_jent (ok : Bool) (v : Word) (s : State) : (finishWith ok v s).jent = s.jent := rfl
@[simp] theorem finishWith_drbg (ok : Bool) (v : Word) (s : State) : (finishWith ok v s).drbg = s.drbg := rfl
@[simp] theorem finishWith_dmem (ok : Bool) (v : Word) (s : State) : (finishWith ok v s).dmem = s.dmem := rfl
@[simp] theorem finishWith_inbox (ok : Bool) (v : Word) (s : State) : (finishWith ok v s).inbox = s.inbox := rfl
@[simp] theorem finishWith_outbox (ok : Bool) (v : Word) (s : State) : (finishWith ok v s).outbox = s.outbox := rfl
@[simp] theorem finishWith_draws (ok : Bool) (v : Word) (s : State) : (finishWith ok v s).draws = s.draws := rfl

@[simp] theorem finish_cfg (v : Word) (s : State) : (finish v s).cfg = s.cfg := rfl
@[simp] theorem finish_status (v : Word) (s : State) : (finish v s).status = 
      { busy := false, err := false, vok := false, fault := s.status.fault, ekind := 0, eunit := 0, ecause := 0 } := rfl
@[simp] theorem finish_result (v : Word) (s : State) : (finish v s).result = v := rfl
@[simp] theorem finish_desc0 (v : Word) (s : State) : (finish v s).desc0 = s.desc0 := rfl
@[simp] theorem finish_desc1 (v : Word) (s : State) : (finish v s).desc1 = s.desc1 := rfl
@[simp] theorem finish_desc2 (v : Word) (s : State) : (finish v s).desc2 = s.desc2 := rfl
@[simp] theorem finish_desc3 (v : Word) (s : State) : (finish v s).desc3 = s.desc3 := rfl
@[simp] theorem finish_gh (v : Word) (s : State) : (finish v s).gh = s.gh := rfl
@[simp] theorem finish_ctr (v : Word) (s : State) : (finish v s).ctr = s.ctr := rfl
@[simp] theorem finish_gcm (v : Word) (s : State) : (finish v s).gcm = s.gcm := rfl
@[simp] theorem finish_dg (v : Word) (s : State) : (finish v s).dg = s.dg := rfl
@[simp] theorem finish_ss (v : Word) (s : State) : (finish v s).ss = s.ss := rfl
@[simp] theorem finish_jent (v : Word) (s : State) : (finish v s).jent = s.jent := rfl
@[simp] theorem finish_drbg (v : Word) (s : State) : (finish v s).drbg = s.drbg := rfl
@[simp] theorem finish_dmem (v : Word) (s : State) : (finish v s).dmem = s.dmem := rfl
@[simp] theorem finish_inbox (v : Word) (s : State) : (finish v s).inbox = s.inbox := rfl
@[simp] theorem finish_outbox (v : Word) (s : State) : (finish v s).outbox = s.outbox := rfl
@[simp] theorem finish_draws (v : Word) (s : State) : (finish v s).draws = s.draws := rfl

/-! ### `report`, `reply`, `setFault` -/

@[simp] theorem report_cfg (s : State) : (report s).cfg = s.cfg := rfl
@[simp] theorem report_status (s : State) : (report s).status = s.status := rfl
@[simp] theorem report_result (s : State) : (report s).result = s.result := rfl
@[simp] theorem report_desc0 (s : State) : (report s).desc0 = s.desc0 := rfl
@[simp] theorem report_desc1 (s : State) : (report s).desc1 = s.desc1 := rfl
@[simp] theorem report_desc2 (s : State) : (report s).desc2 = s.desc2 := rfl
@[simp] theorem report_desc3 (s : State) : (report s).desc3 = s.desc3 := rfl
@[simp] theorem report_gh (s : State) : (report s).gh = s.gh := rfl
@[simp] theorem report_ctr (s : State) : (report s).ctr = s.ctr := rfl
@[simp] theorem report_gcm (s : State) : (report s).gcm = s.gcm := rfl
@[simp] theorem report_dg (s : State) : (report s).dg = s.dg := rfl
@[simp] theorem report_ss (s : State) : (report s).ss = s.ss := rfl
@[simp] theorem report_jent (s : State) : (report s).jent = s.jent := rfl
@[simp] theorem report_drbg (s : State) : (report s).drbg = s.drbg := rfl
@[simp] theorem report_dmem (s : State) : (report s).dmem = s.dmem := rfl
@[simp] theorem report_inbox (s : State) : (report s).inbox = s.inbox := rfl
@[simp] theorem report_outbox (s : State) : (report s).outbox = .ended (statusWord s.status) s.result :: s.outbox := rfl
@[simp] theorem report_draws (s : State) : (report s).draws = s.draws := rfl

@[simp] theorem reply_cfg (r : Reply) (s : State) : (reply r s).cfg = s.cfg := rfl
@[simp] theorem reply_status (r : Reply) (s : State) : (reply r s).status = s.status := rfl
@[simp] theorem reply_result (r : Reply) (s : State) : (reply r s).result = s.result := rfl
@[simp] theorem reply_desc0 (r : Reply) (s : State) : (reply r s).desc0 = s.desc0 := rfl
@[simp] theorem reply_desc1 (r : Reply) (s : State) : (reply r s).desc1 = s.desc1 := rfl
@[simp] theorem reply_desc2 (r : Reply) (s : State) : (reply r s).desc2 = s.desc2 := rfl
@[simp] theorem reply_desc3 (r : Reply) (s : State) : (reply r s).desc3 = s.desc3 := rfl
@[simp] theorem reply_gh (r : Reply) (s : State) : (reply r s).gh = s.gh := rfl
@[simp] theorem reply_ctr (r : Reply) (s : State) : (reply r s).ctr = s.ctr := rfl
@[simp] theorem reply_gcm (r : Reply) (s : State) : (reply r s).gcm = s.gcm := rfl
@[simp] theorem reply_dg (r : Reply) (s : State) : (reply r s).dg = s.dg := rfl
@[simp] theorem reply_ss (r : Reply) (s : State) : (reply r s).ss = s.ss := rfl
@[simp] theorem reply_jent (r : Reply) (s : State) : (reply r s).jent = s.jent := rfl
@[simp] theorem reply_drbg (r : Reply) (s : State) : (reply r s).drbg = s.drbg := rfl
@[simp] theorem reply_dmem (r : Reply) (s : State) : (reply r s).dmem = s.dmem := rfl
@[simp] theorem reply_inbox (r : Reply) (s : State) : (reply r s).inbox = s.inbox := rfl
@[simp] theorem reply_outbox (r : Reply) (s : State) : (reply r s).outbox = r :: s.outbox := rfl
@[simp] theorem reply_draws (r : Reply) (s : State) : (reply r s).draws = s.draws := rfl

@[simp] theorem setFault_cfg (s : State) : (setFault s).cfg = s.cfg := rfl
@[simp] theorem setFault_status (s : State) : (setFault s).status = { s.status with fault := true } := rfl
@[simp] theorem setFault_result (s : State) : (setFault s).result = s.result := rfl
@[simp] theorem setFault_desc0 (s : State) : (setFault s).desc0 = s.desc0 := rfl
@[simp] theorem setFault_desc1 (s : State) : (setFault s).desc1 = s.desc1 := rfl
@[simp] theorem setFault_desc2 (s : State) : (setFault s).desc2 = s.desc2 := rfl
@[simp] theorem setFault_desc3 (s : State) : (setFault s).desc3 = s.desc3 := rfl
@[simp] theorem setFault_gh (s : State) : (setFault s).gh = s.gh := rfl
@[simp] theorem setFault_ctr (s : State) : (setFault s).ctr = s.ctr := rfl
@[simp] theorem setFault_gcm (s : State) : (setFault s).gcm = s.gcm := rfl
@[simp] theorem setFault_dg (s : State) : (setFault s).dg = s.dg := rfl
@[simp] theorem setFault_ss (s : State) : (setFault s).ss = s.ss := rfl
@[simp] theorem setFault_jent (s : State) : (setFault s).jent = s.jent := rfl
@[simp] theorem setFault_drbg (s : State) : (setFault s).drbg = s.drbg := rfl
@[simp] theorem setFault_dmem (s : State) : (setFault s).dmem = s.dmem := rfl
@[simp] theorem setFault_inbox (s : State) : (setFault s).inbox = s.inbox := rfl
@[simp] theorem setFault_outbox (s : State) : (setFault s).outbox = s.outbox := rfl
@[simp] theorem setFault_draws (s : State) : (setFault s).draws = s.draws := rfl

/-! ### `zeroizeAll` -/

@[simp] theorem zeroizeAll_cfg (s : State) : (zeroizeAll s).cfg = s.cfg := rfl
@[simp] theorem zeroizeAll_status (s : State) : (zeroizeAll s).status = s.status := rfl
@[simp] theorem zeroizeAll_result (s : State) : (zeroizeAll s).result = s.result := rfl
@[simp] theorem zeroizeAll_desc0 (s : State) : (zeroizeAll s).desc0 = s.desc0 := rfl
@[simp] theorem zeroizeAll_desc1 (s : State) : (zeroizeAll s).desc1 = s.desc1 := rfl
@[simp] theorem zeroizeAll_desc2 (s : State) : (zeroizeAll s).desc2 = s.desc2 := rfl
@[simp] theorem zeroizeAll_desc3 (s : State) : (zeroizeAll s).desc3 = s.desc3 := rfl
@[simp] theorem zeroizeAll_gh (s : State) : (zeroizeAll s).gh = GhUnit.reset := rfl
@[simp] theorem zeroizeAll_ctr (s : State) : (zeroizeAll s).ctr = CtrUnit.reset := rfl
@[simp] theorem zeroizeAll_gcm (s : State) : (zeroizeAll s).gcm = GcmUnit.reset := rfl
@[simp] theorem zeroizeAll_dg (s : State) : (zeroizeAll s).dg = DgUnit.reset := rfl
@[simp] theorem zeroizeAll_ss (s : State) : (zeroizeAll s).ss = SsUnit.reset := rfl
@[simp] theorem zeroizeAll_jent (s : State) : (zeroizeAll s).jent = s.jent := rfl
@[simp] theorem zeroizeAll_drbg (s : State) : (zeroizeAll s).drbg = if s.cfg.hasDrbg then DrbgUnit.reset s.cfg else s.drbg := rfl
@[simp] theorem zeroizeAll_dmem (s : State) : (zeroizeAll s).dmem = s.dmem := rfl
@[simp] theorem zeroizeAll_inbox (s : State) : (zeroizeAll s).inbox = s.inbox := rfl
@[simp] theorem zeroizeAll_outbox (s : State) : (zeroizeAll s).outbox = s.outbox := rfl
@[simp] theorem zeroizeAll_draws (s : State) : (zeroizeAll s).draws = s.draws := rfl

/-! ### `hardReset` -/

@[simp] theorem hardReset_cfg (s : State) : (hardReset s).cfg = s.cfg := rfl
@[simp] theorem hardReset_status (s : State) : (hardReset s).status = Status.reset := rfl
@[simp] theorem hardReset_result (s : State) : (hardReset s).result = 0 := rfl
@[simp] theorem hardReset_desc0 (s : State) : (hardReset s).desc0 = 0 := rfl
@[simp] theorem hardReset_desc1 (s : State) : (hardReset s).desc1 = 0 := rfl
@[simp] theorem hardReset_desc2 (s : State) : (hardReset s).desc2 = 0 := rfl
@[simp] theorem hardReset_desc3 (s : State) : (hardReset s).desc3 = 0 := rfl
@[simp] theorem hardReset_gh (s : State) : (hardReset s).gh = GhUnit.reset := rfl
@[simp] theorem hardReset_ctr (s : State) : (hardReset s).ctr = CtrUnit.reset := rfl
@[simp] theorem hardReset_gcm (s : State) : (hardReset s).gcm = GcmUnit.reset := rfl
@[simp] theorem hardReset_dg (s : State) : (hardReset s).dg = DgUnit.reset := rfl
@[simp] theorem hardReset_ss (s : State) : (hardReset s).ss = SsUnit.reset := rfl
@[simp] theorem hardReset_jent (s : State) : (hardReset s).jent = freeJent s.draws := rfl
@[simp] theorem hardReset_drbg (s : State) : (hardReset s).drbg = DrbgUnit.reset s.cfg := rfl
@[simp] theorem hardReset_dmem (s : State) : (hardReset s).dmem = freeDmem s.cfg s.draws := rfl
@[simp] theorem hardReset_inbox (s : State) : (hardReset s).inbox = s.inbox := rfl
@[simp] theorem hardReset_outbox (s : State) : (hardReset s).outbox = s.outbox := rfl
@[simp] theorem hardReset_draws (s : State) : (hardReset s).draws = s.draws + 1 := rfl

/-! ### `setPar` -/

@[simp] theorem setPar_cfg (u : Byte) (p : Par) (s : State) : (setPar u p s).cfg = s.cfg := by
  unfold setPar
  split_ifs <;> rfl
@[simp] theorem setPar_status (u : Byte) (p : Par) (s : State) : (setPar u p s).status = s.status := by
  unfold setPar
  split_ifs <;> rfl
@[simp] theorem setPar_result (u : Byte) (p : Par) (s : State) : (setPar u p s).result = s.result := by
  unfold setPar
  split_ifs <;> rfl
@[simp] theorem setPar_desc0 (u : Byte) (p : Par) (s : State) : (setPar u p s).desc0 = s.desc0 := by
  unfold setPar
  split_ifs <;> rfl
@[simp] theorem setPar_desc1 (u : Byte) (p : Par) (s : State) : (setPar u p s).desc1 = s.desc1 := by
  unfold setPar
  split_ifs <;> rfl
@[simp] theorem setPar_desc2 (u : Byte) (p : Par) (s : State) : (setPar u p s).desc2 = s.desc2 := by
  unfold setPar
  split_ifs <;> rfl
@[simp] theorem setPar_desc3 (u : Byte) (p : Par) (s : State) : (setPar u p s).desc3 = s.desc3 := by
  unfold setPar
  split_ifs <;> rfl
@[simp] theorem setPar_gh (u : Byte) (p : Par) (s : State) : (setPar u p s).gh = s.gh := by
  unfold setPar
  split_ifs <;> rfl
@[simp] theorem setPar_dg (u : Byte) (p : Par) (s : State) : (setPar u p s).dg = s.dg := by
  unfold setPar
  split_ifs <;> rfl
@[simp] theorem setPar_jent (u : Byte) (p : Par) (s : State) : (setPar u p s).jent = s.jent := by
  unfold setPar
  split_ifs <;> rfl
@[simp] theorem setPar_drbg (u : Byte) (p : Par) (s : State) : (setPar u p s).drbg = s.drbg := by
  unfold setPar
  split_ifs <;> rfl
@[simp] theorem setPar_dmem (u : Byte) (p : Par) (s : State) : (setPar u p s).dmem = s.dmem := by
  unfold setPar
  split_ifs <;> rfl
@[simp] theorem setPar_inbox (u : Byte) (p : Par) (s : State) : (setPar u p s).inbox = s.inbox := by
  unfold setPar
  split_ifs <;> rfl
@[simp] theorem setPar_outbox (u : Byte) (p : Par) (s : State) : (setPar u p s).outbox = s.outbox := by
  unfold setPar
  split_ifs <;> rfl
@[simp] theorem setPar_draws (u : Byte) (p : Par) (s : State) : (setPar u p s).draws = s.draws := by
  unfold setPar
  split_ifs <;> rfl

/-! ### Zeroize -/

@[simp] theorem CtrUnit.zeroize_phase (u : CtrUnit) : u.zeroize.phase = .uninit := rfl
@[simp] theorem CtrUnit.zeroize_key (u : CtrUnit) : u.zeroize.key = [] := rfl
@[simp] theorem CtrUnit.zeroize_c (u : CtrUnit) : u.zeroize.c = 0 := rfl
@[simp] theorem CtrUnit.zeroize_par (u : CtrUnit) : u.zeroize.par = u.par := rfl
@[simp] theorem CtrUnit.zeroize_idem (u : CtrUnit) : u.zeroize.zeroize = u.zeroize := rfl
@[simp] theorem GcmUnit.zeroize_phase (u : GcmUnit) : u.zeroize.phase = .uninit := rfl
@[simp] theorem GcmUnit.zeroize_key (u : GcmUnit) : u.zeroize.key = [] := rfl
@[simp] theorem GcmUnit.zeroize_guardValid (u : GcmUnit) : u.zeroize.guardValid = u.guardValid := rfl
@[simp] theorem GcmUnit.zeroize_guardKey (u : GcmUnit) : u.zeroize.guardKey = u.guardKey := rfl
@[simp] theorem GcmUnit.zeroize_guardN (u : GcmUnit) : u.zeroize.guardN = u.guardN := rfl
@[simp] theorem GcmUnit.zeroize_aadStore (u : GcmUnit) : u.zeroize.aadStore = [] := rfl
@[simp] theorem GcmUnit.zeroize_aadKept (u : GcmUnit) : u.zeroize.aadKept = false := rfl
@[simp] theorem GcmUnit.zeroize_par (u : GcmUnit) : u.zeroize.par = u.par := rfl
@[simp] theorem GcmUnit.zeroize_idem (u : GcmUnit) : u.zeroize.zeroize = u.zeroize := rfl
@[simp] theorem GcmUnit.zeroizeWithGuard_phase (u : GcmUnit) : u.zeroizeWithGuard.phase = .uninit := rfl
@[simp] theorem GcmUnit.zeroizeWithGuard_guardValid (u : GcmUnit) : u.zeroizeWithGuard.guardValid = false := rfl
@[simp] theorem GcmUnit.zeroizeWithGuard_par (u : GcmUnit) : u.zeroizeWithGuard.par = u.par := rfl
@[simp] theorem SsUnit.zeroize_phase (u : SsUnit) : u.zeroize.phase = .uninit := rfl
@[simp] theorem SsUnit.zeroize_rounds (u : SsUnit) : u.zeroize.rounds = 0 := rfl
@[simp] theorem SsUnit.zeroize_par (u : SsUnit) : u.zeroize.par = u.par := rfl
@[simp] theorem SsUnit.zeroize_idem (u : SsUnit) : u.zeroize.zeroize = u.zeroize := rfl

/-! ### `GcmUnit.setup` -/

@[simp] theorem GcmUnit.setup_phase (u : GcmUnit) (k n : Bytes) : (u.setup k n).phase = .ready := rfl
@[simp] theorem GcmUnit.setup_key (u : GcmUnit) (k n : Bytes) : (u.setup k n).key = k := rfl
@[simp] theorem GcmUnit.setup_N (u : GcmUnit) (k n : Bytes) : (u.setup k n).N = n := rfl
@[simp] theorem GcmUnit.setup_H (u : GcmUnit) (k n : Bytes) : (u.setup k n).H = gcmSubkey k := rfl
@[simp] theorem GcmUnit.setup_J0 (u : GcmUnit) (k n : Bytes) : (u.setup k n).J0 = gcmJ0 (gcmSubkey k) n := rfl
@[simp] theorem GcmUnit.setup_X (u : GcmUnit) (k n : Bytes) : (u.setup k n).X = 0 := rfl
@[simp] theorem GcmUnit.setup_tag (u : GcmUnit) (k n : Bytes) : (u.setup k n).tag = u.tag := rfl
@[simp] theorem GcmUnit.setup_enc (u : GcmUnit) (k n : Bytes) : (u.setup k n).enc = u.enc := rfl
@[simp] theorem GcmUnit.setup_autoInc (u : GcmUnit) (k n : Bytes) : (u.setup k n).autoInc = u.autoInc := rfl
@[simp] theorem GcmUnit.setup_preserveAd (u : GcmUnit) (k n : Bytes) : (u.setup k n).preserveAd = u.preserveAd := rfl
@[simp] theorem GcmUnit.setup_tail (u : GcmUnit) (k n : Bytes) : (u.setup k n).tail = false := rfl
@[simp] theorem GcmUnit.setup_guardValid (u : GcmUnit) (k n : Bytes) : (u.setup k n).guardValid = true := rfl
@[simp] theorem GcmUnit.setup_guardKey (u : GcmUnit) (k n : Bytes) : (u.setup k n).guardKey = k := rfl
@[simp] theorem GcmUnit.setup_guardN (u : GcmUnit) (k n : Bytes) : (u.setup k n).guardN = n := rfl
@[simp] theorem GcmUnit.setup_aadStore (u : GcmUnit) (k n : Bytes) : (u.setup k n).aadStore = u.aadStore := rfl
@[simp] theorem GcmUnit.setup_aadKept (u : GcmUnit) (k n : Bytes) : (u.setup k n).aadKept = u.aadKept := rfl
@[simp] theorem GcmUnit.setup_par (u : GcmUnit) (k n : Bytes) : (u.setup k n).par = u.par := rfl

/-! ### `JentUnit.drawn`, `DrbgUnit.refill` -/

@[simp] theorem JentUnit.drawn_available (u : JentUnit) (n : Nat) : (u.drawn n).available = u.available := rfl
@[simp] theorem DrbgUnit.refill_phase (u : DrbgUnit) (n : Nat) : (u.refill n).phase = u.phase := rfl
@[simp] theorem DrbgUnit.refill_kind (u : DrbgUnit) (n : Nat) : (u.refill n).kind = u.kind := rfl
@[simp] theorem DrbgUnit.refill_seed (u : DrbgUnit) (n : Nat) : (u.refill n).seed = u.seed := rfl
@[simp] theorem DrbgUnit.refill_idx (u : DrbgUnit) (n : Nat) : (u.refill n).idx = 0 := rfl
@[simp] theorem DrbgUnit.refill_buf_length (u : DrbgUnit) (n : Nat) : (u.refill n).buf.length = n := by
  simp [DrbgUnit.refill, drawBytes]

end Sys2Proof.Machine
end

