-- ==== Sys2Proof/Laws/Ops.lean ====
section
/-! SUPPORT. For each shared operation, once, everything it can do. -/

namespace Sys2Proof.Machine

/-! ### The end of a command -/

/-- A command ends in a next state: the state of its first failing check, or of its effect (R406). -/
theorem command_next {u : UnitId} {failure : Option Cause} {effect s t : State}
    (h : command u failure effect s = .next t) :
    (∃ c, failure = some c ∧ t = raiseError u c s) ∨ (failure = none ∧ t = effect) := by
  cases failure with
  | some c => exact .inl ⟨c, rfl, by simpa [command] using h.symm⟩
  | none => exact .inr ⟨rfl, by simpa [command] using h.symm⟩

@[simp] theorem command_none (u : UnitId) (effect s : State) : command u none effect s = .next effect := rfl

@[simp] theorem command_some (u : UnitId) (c : Cause) (effect s : State) :
    command u (some c) effect s = .next (raiseError u c s) := rfl

/-- `finish` in the terms of the claims (R36, R37). -/
theorem finish_eq (v : Word) (s : State) : finish v s = { s with result := v, status := s.status.ended false } := rfl

theorem finishWith_eq (ok : Bool) (v : Word) (s : State) :
    finishWith ok v s = { s with result := v, status := s.status.ended ok } := rfl

/-! ### Errors -/

/-- An error of a command of unit `u` touches no unit but `u` (R405). -/
theorem unitEffect_other (u : UnitId) (s : State) : sameOtherUnits u s (unitEffect u s) := by
  cases u <;> simp only [sameOtherUnits, unitEffect] <;> (try split_ifs) <;> simp

/-- What an error leaves alone beside the units (R405). -/
theorem unitEffect_rest (u : UnitId) (s : State) :
    sameHostSide s (unitEffect u s) ∧ (unitEffect u s).dmem = s.dmem ∧ (unitEffect u s).draws = s.draws ∧
      (unitEffect u s).status = s.status ∧ (unitEffect u s).result = s.result := by
  cases u <;> simp only [sameHostSide, unitEffect] <;> (try split_ifs) <;> simp

@[simp] theorem raiseError_status (u : UnitId) (c : Cause) (s : State) :
    (raiseError u c s).status = s.status.raised u c := rfl

@[simp] theorem raiseError_result (u : UnitId) (c : Cause) (s : State) : (raiseError u c s).result = 0 := rfl

@[simp] theorem raiseError_cfg (u : UnitId) (c : Cause) (s : State) : (raiseError u c s).cfg = s.cfg :=
  (unitEffect_rest u s).1.1

@[simp] theorem raiseError_dmem (u : UnitId) (c : Cause) (s : State) : (raiseError u c s).dmem = s.dmem :=
  (unitEffect_rest u s).2.1

@[simp] theorem raiseError_draws (u : UnitId) (c : Cause) (s : State) : (raiseError u c s).draws = s.draws :=
  (unitEffect_rest u s).2.2.1

theorem raiseError_hostSide (u : UnitId) (c : Cause) (s : State) : sameHostSide s (raiseError u c s) :=
  (unitEffect_rest u s).1

theorem raiseError_other (u : UnitId) (c : Cause) (s : State) : sameOtherUnits u s (raiseError u c s) :=
  unitEffect_other u s

/-- An error of unit SYS, and a decoding error, changes STATUS and RESULT only (R411). -/
theorem raiseError_sys (c : Cause) (s : State) :
    raiseError .sys c s = { s with result := 0, status := s.status.raised .sys c } := rfl

theorem raiseDecode_eq (e : DecodeError) (s : State) :
    raiseDecode e s = { s with result := 0, status := s.status.raised .sys (decodeCause e) } := rfl

/-! ### Ranges -/

/-- `InRange` (R83, R84). -/
@[simp] theorem inRange_iff (p : Params) (a n : Nat) : inRange p a n = true ↔ n = 0 ∨ a + n ≤ p.dmemSize := by
  simp [inRange]

/-- `overlap` (R85): false for the same range, for disjoint ranges, and for empty ones. -/
@[simp] theorem overlap_false_iff (a b n : Nat) :
    overlap a b n = false ↔ n = 0 ∨ a = b ∨ a + n ≤ b ∨ b + n ≤ a := by
  simp only [overlap, Bool.and_eq_false_iff, decide_eq_false_iff_not, Bool.not_eq_false', decide_eq_true_eq, bne_eq_false_iff_eq]
  omega

/-- The range checks of format X pass exactly when both ranges are in DMEM and do not overlap in part (R83, R85). -/
theorem xformRangeCheck_none {src dst len : Word} {s : State} :
    xformRangeCheck src dst len s = none ↔
      inRange s.cfg src.toNat len.toNat = true ∧ inRange s.cfg dst.toNat len.toNat = true ∧
        overlap src.toNat dst.toNat len.toNat = false := by
  unfold xformRangeCheck
  split_ifs <;> simp_all

/-- The bytes of a write, in the terms of the claims (R21). -/
theorem storeBytes_wrote {s : State} (h : s.dmem.wf) (a : Nat) (v : Bytes) : wrote s (s.storeBytes a v) a v :=
  fun b => Memory.readByte_writeBytes h a v b

/-- A write in range keeps DMEM in canonical form and inside its size. -/
theorem storeBytes_memoryOk {s : State} (h : memoryOk s) {a n : Nat} {v : Bytes}
    (hr : inRange s.cfg a n = true) (hv : v.length ≤ n) : memoryOk (s.storeBytes a v) := by
  refine ⟨Memory.writeBytes_wf a v h.1, Memory.writeBytes_below h.2 ?_⟩
  rcases (inRange_iff _ _ _).mp hr with h0 | h0
  · exact .inl (List.length_eq_zero_iff.mp (by omega))
  · exact .inr (by simp only [State.storeBytes_cfg]; omega)

/-! ### Steps -/

/-- A step of the sequencer. -/
theorem step_sequencer {s : State} (h : commandDue s) : step s = sequencerStep s := by
  simp [step, h.1, h.2.1, h.2.2]

/-- A step of the host while BUSY is 0. -/
theorem step_host {s : State} {e : HostEvent} {rest : List HostEvent} (hb : s.status.busy = false)
    (hf : s.status.fault = false) (hi : s.inbox = e :: rest) : step s = hostMove e.move { s with inbox := rest } := by
  simp [step, State.nextEvent, hb, hf, hi]

/-- A step of the host that does not wait for BUSY = 0. -/
theorem step_early {s : State} {m : HostMove} {rest : List HostEvent} (hb : s.status.busy = true)
    (hf : s.status.fault = false) (hi : s.inbox = ⟨m, true⟩ :: rest) : step s = earlyMove m { s with inbox := rest } := by
  simp [step, State.nextEvent, hb, hf, hi]

/-- A step of the fault state with a move of the host pending. -/
theorem step_stuck {s : State} {e : HostEvent} {rest : List HostEvent} (hf : s.status.fault = true)
    (hi : s.inbox = e :: rest) : step s = stuckMove e.move { s with inbox := rest } := by
  simp [step, State.nextEvent, hf, hi]

/-- A next state out of the fault state is that of a hardware reset. -/
theorem stuckMove_next {m : HostMove} {s t : State} (h : stuckMove m s = .next t) :
    m = .hardReset ∧ t = hardReset s := by
  cases m <;> simp_all [stuckMove]

/-- An idle step. -/
theorem step_idle {s : State} (hb : s.status.busy = false) (hf : s.status.fault = false) (hi : s.inbox = []) :
    step s = .next s := by
  simp [step, State.nextEvent, hb, hf, hi]

/-- Where a next state can come from: a hardware reset out of the fault state, a move of the host, a command, or none
of these (R24, R450). -/
theorem step_next {s t : State} (h : step s = .next t) :
    (s.status.fault = true ∧ ∃ rest, s.nextEvent = some (.hardReset, rest) ∧ t = hardReset { s with inbox := rest }) ∨
      (s.status.fault = false ∧ s.status.busy = true ∧
        ∃ m rest, s.nextEvent = some (m, rest) ∧ earlyMove m { s with inbox := rest } = .next t) ∨
      (s.status.fault = false ∧ s.status.busy = false ∧
        ∃ m rest, s.nextEvent = some (m, rest) ∧ hostMove m { s with inbox := rest } = .next t) ∨
      (commandDue s ∧ sequencerStep s = .next t) ∨ (s.status.busy = false ∧ t = s) := by
  unfold step at h
  split at h
  · rename_i m rest he
    cases hf : s.status.fault with
    | true =>
      obtain ⟨rfl, rfl⟩ := stuckMove_next (by simpa [hf] using h)
      exact .inl ⟨rfl, rest, he, rfl⟩
    | false =>
      cases hb : s.status.busy with
      | true => exact .inr (.inl ⟨rfl, rfl, m, rest, he, by simpa [hf, hb] using h⟩)
      | false => exact .inr (.inr (.inl ⟨rfl, rfl, m, rest, he, by simpa [hf, hb] using h⟩))
  · rename_i he
    cases hf : s.status.fault with
    | true => simp [hf] at h
    | false =>
      cases hb : s.status.busy with
      | true => exact .inr (.inr (.inr (.inl ⟨⟨hb, he, hf⟩, by simpa [hf, hb] using h⟩)))
      | false => exact .inr (.inr (.inr (.inr ⟨rfl, by simpa [hf, hb, eq_comm] using h⟩)))

/-- A command, or a decoding error, taken to its end. -/
theorem sequencerStep_next {s t : State} (h : sequencerStep s = .next t) :
    ∃ r, runCommand s = .next r ∧ t = report r := by
  unfold sequencerStep at h
  split at h
  · exact ⟨_, ‹_›, by simpa using h.symm⟩
  · cases h
  · cases h

/-- What a command or a decoding error can be. -/
theorem runCommand_next {s t : State} (h : runCommand s = .next t) :
    (∃ i, s.decoded = .command i ∧ exec i s = .next t) ∨ (∃ e, s.decoded = .illegal e ∧ t = raiseDecode e s) := by
  unfold runCommand at h
  split at h
  · exact .inl ⟨_, ‹_›, h⟩
  · exact .inr ⟨_, ‹_›, by simpa using h.symm⟩

/-- A register access of the host: refused by its form, a fault outside the space, else a next state (R33, R90). -/
theorem regAccess_next {width offset : Nat} {t u : State} (h : regAccess width offset t = .next u) :
    u = t ∧ width = 4 ∧ offset % 4 = 0 ∧ offset < 256 := by
  unfold regAccess at h
  split_ifs at h with h1 h2
  simp only [regForm, Bool.not_eq_true', Bool.and_eq_false_iff, beq_eq_false_iff_ne, not_or, not_not] at h1
  exact ⟨by simpa using h.symm, h1.1, h1.2, by simpa [regSpace] using h2⟩

/-- A DMEM access of the host: a fault where a byte does not exist, else a next state (R80). -/
theorem dmemAccess_next {s t u : State} {a n : Nat} (h : dmemAccess s a n t = .next u) :
    u = t ∧ inRange s.cfg a n = true := by
  unfold dmemAccess at h
  split_ifs at h with h1
  exact ⟨by simpa using h.symm, h1⟩

/-- The register writes of the host change DESC0 to DESC3, STATUS and RESULT only (R33, R38). -/
theorem regWrite_cases (offset : Nat) (v : Word) (s : State) :
    regWrite offset v s = issue v s ∨ regWrite offset v s = { s with desc1 := v } ∨
      regWrite offset v s = { s with desc2 := v } ∨ regWrite offset v s = { s with desc3 := v } ∨
        regWrite offset v s = s := by
  unfold regWrite
  split <;> simp

end Sys2Proof.Machine
end

