-- ==== Sys2Proof/Laws/Exec.lean ====
section
/-! SUPPORT. What any command can do, once for all of them. -/

namespace Sys2Proof.Machine

/-- A command that ends in a next state has raised one of its causes, with no other effect than `raise` (R405), or it
has ended without an error. -/
theorem exec_next {i : Instr} {s t : State} (h : exec i s = .next t) :
    (∃ c ∈ i.causes, t = raiseError i.unit c s) ∨ t.status.err = false := by
  cases i <;>
    simp only [exec, execSysNop, execSysReset, execSysSetpar, execGhInit, execGhUpdate, execGhSegment, execGhFinal,
      execGhReset, execGhRead, execGhDestroy, execCtrInit, execCtrXform, execCtrDestroy, execGcmInit, execGcmAad,
      execGcmXform, execGcmFinal, execGcmVerify, execGcmDestroy, execDgInit, execDgUpdate, execDgFinal, execDgReset,
      execDgCompute, execDgDestroy, execSsInit, execSsXform, execSsDestroy, execJentGet, execJentNext, execJentAvail,
      execDrbgInit, execDrbgGen, execDrbgReset, execDrbgDestroy] at h <;>
    (rcases command_next h with ⟨c, hc, rfl⟩ | ⟨-, rfl⟩
     · left
       refine ⟨c, ?_, rfl⟩
       try simp only [sysSetparCheck, ghUpdateCheck, ctrInitCheck, ctrXformCheck, xformRangeCheck, gcmInitCheck,
         gcmAadCheck, gcmXformCheck, gcmFinalCheck, gcmVerifyCheck, dgInitCheck, dgRecordCheck, dgUpdateCheck,
         dgFinalCheck, dgComputeCheck, ssInitCheck, ssXformCheck, jentGetCheck, drbgInitCheck, drbgGenCheck,
         drbgResetCheck] at hc
       (try split_ifs at hc) <;>
         first | (injection hc with hc; subst hc; simp [Instr.causes]) | cases hc
     · right; rfl)

end Sys2Proof.Machine
end

