-- ==== Sys2Proof/Laws/PerInstr.lean ====
section
/-! SUPPORT. Per-instruction families: the opcode word of the encoder (spec/30_encoding.md R110, R119). -/

namespace Sys2Proof

/-- Bit `i` of an opcode word (R110). -/
theorem opWord_getLsbD (o f m : Byte) (i : Nat) :
    (opWord o f m).getLsbD i =
      if i < 8 then o.getLsbD i else if i < 16 then f.getLsbD (i - 8) else if i < 24 then m.getLsbD (i - 16) else false := by
  change ((0#8 ++ m ++ f ++ o : BitVec (8 + 8 + 8 + 8))).getLsbD i = _
  simp only [BitVec.getLsbD_append]
  split_ifs <;> first | rfl | omega | simp [Nat.sub_sub]

/-- The fields of an opcode word are the ones it was built from (R110). -/
theorem opWord_opcode (o f m : Byte) : (opWord o f m).extractLsb' 0 8 = o := by
  apply BitVec.eq_of_getLsbD_eq
  intro i hi
  simp [opWord_getLsbD, hi]

/-- See `opWord_opcode`. -/
theorem opWord_flags (o f m : Byte) : (opWord o f m).extractLsb' 8 8 = f := by
  apply BitVec.eq_of_getLsbD_eq
  intro i hi
  have h1 : 8 + i < 16 := by omega
  simp [opWord_getLsbD, hi, h1]

/-- See `opWord_opcode`. -/
theorem opWord_imm8 (o f m : Byte) : (opWord o f m).extractLsb' 16 8 = m := by
  apply BitVec.eq_of_getLsbD_eq
  intro i hi
  have h1 : 16 + i < 24 := by omega
  have h2 : ¬ 16 + i < 16 := by omega
  have h3 : ¬ 16 + i < 8 := by omega
  simp [opWord_getLsbD, hi, h1, h2, h3]

/-- See `opWord_opcode`. -/
theorem opWord_reserved (o f m : Byte) : (opWord o f m).extractLsb' 24 8 = 0 := by
  apply BitVec.eq_of_getLsbD_eq
  intro i hi
  have h1 : ¬ 24 + i < 24 := by omega
  have h2 : ¬ 24 + i < 16 := by omega
  have h3 : ¬ 24 + i < 8 := by omega
  simp [opWord_getLsbD, h1, h2, h3]

/-- The opcode byte is the unit (high nibble) and the operation (low nibble) of the command, and W0[31:24] is 0
(R110, R119). -/
def Laws.OpcodeByte.Statement (i : Instr) : Prop :=
  (encode i).reserved = 0 ∧ (encode i).opcode.toNat = 16 * i.unit.number + i.operation

/-- The family from the opcode word. -/
theorem Laws.opcodeByte_of {i : Instr} {o f m : Byte} (h : (encode i).w0 = opWord o f m)
    (ho : o.toNat = 16 * i.unit.number + i.operation) : Laws.OpcodeByte.Statement i := by
  refine ⟨?_, ?_⟩
  · rw [Desc.reserved, h, opWord_reserved]
  · rw [Desc.opcode, h, opWord_opcode, ho]

theorem Laws.OpcodeByte.sysNop : Laws.OpcodeByte.Statement .sysNop :=
  Laws.opcodeByte_of rfl rfl
theorem Laws.OpcodeByte.sysReset : Laws.OpcodeByte.Statement .sysReset :=
  Laws.opcodeByte_of rfl rfl
theorem Laws.OpcodeByte.sysSetpar (a : Byte) (b : Bool) (c d : Word) : Laws.OpcodeByte.Statement (.sysSetpar a b c d) :=
  Laws.opcodeByte_of rfl rfl
theorem Laws.OpcodeByte.ghInit (a : Word) : Laws.OpcodeByte.Statement (.ghInit a) :=
  Laws.opcodeByte_of rfl rfl
theorem Laws.OpcodeByte.ghUpdate (a b : Word) : Laws.OpcodeByte.Statement (.ghUpdate a b) :=
  Laws.opcodeByte_of rfl rfl
theorem Laws.OpcodeByte.ghSegment (a b : Word) : Laws.OpcodeByte.Statement (.ghSegment a b) :=
  Laws.opcodeByte_of rfl rfl
theorem Laws.OpcodeByte.ghFinal (a b c : Word) : Laws.OpcodeByte.Statement (.ghFinal a b c) :=
  Laws.opcodeByte_of rfl rfl
theorem Laws.OpcodeByte.ghReset : Laws.OpcodeByte.Statement .ghReset :=
  Laws.opcodeByte_of rfl rfl
theorem Laws.OpcodeByte.ghRead (a : Word) : Laws.OpcodeByte.Statement (.ghRead a) :=
  Laws.opcodeByte_of rfl rfl
theorem Laws.OpcodeByte.ghDestroy : Laws.OpcodeByte.Statement .ghDestroy :=
  Laws.opcodeByte_of rfl rfl
theorem Laws.OpcodeByte.ctrInit (a b : Word) : Laws.OpcodeByte.Statement (.ctrInit a b) :=
  Laws.opcodeByte_of rfl rfl
theorem Laws.OpcodeByte.ctrXform (a b c : Word) : Laws.OpcodeByte.Statement (.ctrXform a b c) :=
  Laws.opcodeByte_of rfl rfl
theorem Laws.OpcodeByte.ctrDestroy : Laws.OpcodeByte.Statement .ctrDestroy :=
  Laws.opcodeByte_of rfl rfl
theorem Laws.OpcodeByte.gcmInit (a b c : Bool) (d e : Word) : Laws.OpcodeByte.Statement (.gcmInit a b c d e) :=
  Laws.opcodeByte_of rfl rfl
theorem Laws.OpcodeByte.gcmAad (a b : Word) : Laws.OpcodeByte.Statement (.gcmAad a b) :=
  Laws.opcodeByte_of rfl rfl
theorem Laws.OpcodeByte.gcmXform (a b c : Word) : Laws.OpcodeByte.Statement (.gcmXform a b c) :=
  Laws.opcodeByte_of rfl rfl
theorem Laws.OpcodeByte.gcmFinal (a b : Word) (c : Byte) : Laws.OpcodeByte.Statement (.gcmFinal a b c) :=
  Laws.opcodeByte_of rfl rfl
theorem Laws.OpcodeByte.gcmVerify (a b : Word) (c : Byte) : Laws.OpcodeByte.Statement (.gcmVerify a b c) :=
  Laws.opcodeByte_of rfl rfl
theorem Laws.OpcodeByte.gcmDestroy : Laws.OpcodeByte.Statement .gcmDestroy :=
  Laws.opcodeByte_of rfl rfl
theorem Laws.OpcodeByte.dgInit (a : HashAlg) (b c : Word) : Laws.OpcodeByte.Statement (.dgInit a b c) :=
  Laws.opcodeByte_of rfl rfl
theorem Laws.OpcodeByte.dgUpdate (a b : Word) : Laws.OpcodeByte.Statement (.dgUpdate a b) :=
  Laws.opcodeByte_of rfl rfl
theorem Laws.OpcodeByte.dgFinal (a : Word) : Laws.OpcodeByte.Statement (.dgFinal a) :=
  Laws.opcodeByte_of rfl rfl
theorem Laws.OpcodeByte.dgReset : Laws.OpcodeByte.Statement .dgReset :=
  Laws.opcodeByte_of rfl rfl
theorem Laws.OpcodeByte.dgCompute (a b c : Word) : Laws.OpcodeByte.Statement (.dgCompute a b c) :=
  Laws.opcodeByte_of rfl rfl
theorem Laws.OpcodeByte.dgDestroy : Laws.OpcodeByte.Statement .dgDestroy :=
  Laws.opcodeByte_of rfl rfl
theorem Laws.OpcodeByte.ssInit (a : Byte) (b c : Word) : Laws.OpcodeByte.Statement (.ssInit a b c) :=
  Laws.opcodeByte_of rfl rfl
theorem Laws.OpcodeByte.ssXform (a b c : Word) : Laws.OpcodeByte.Statement (.ssXform a b c) :=
  Laws.opcodeByte_of rfl rfl
theorem Laws.OpcodeByte.ssDestroy : Laws.OpcodeByte.Statement .ssDestroy :=
  Laws.opcodeByte_of rfl rfl
theorem Laws.OpcodeByte.jentGet (a b : Word) : Laws.OpcodeByte.Statement (.jentGet a b) :=
  Laws.opcodeByte_of rfl rfl
theorem Laws.OpcodeByte.jentNext : Laws.OpcodeByte.Statement .jentNext :=
  Laws.opcodeByte_of rfl rfl
theorem Laws.OpcodeByte.jentAvail : Laws.OpcodeByte.Statement .jentAvail :=
  Laws.opcodeByte_of rfl rfl
theorem Laws.OpcodeByte.drbgInit (a : BitVec 2) (b c : Word) : Laws.OpcodeByte.Statement (.drbgInit a b c) :=
  Laws.opcodeByte_of rfl rfl
theorem Laws.OpcodeByte.drbgGen (a b : Word) : Laws.OpcodeByte.Statement (.drbgGen a b) :=
  Laws.opcodeByte_of rfl rfl
theorem Laws.OpcodeByte.drbgReset : Laws.OpcodeByte.Statement .drbgReset :=
  Laws.opcodeByte_of rfl rfl
theorem Laws.OpcodeByte.drbgDestroy : Laws.OpcodeByte.Statement .drbgDestroy :=
  Laws.opcodeByte_of rfl rfl

end Sys2Proof
end

