-- ==== Sys2Proof/Tests/Slice0.lean ====
section
/-! SUPPORT. Tests. Expected results come from spec/95_test_vectors.md (V-.. and P..) and from the examples of the
rules named beside them. `witness_<Name>` shows that the hypotheses of the statement `<Name>` can be met. -/

namespace Sys2Proof.Tests

open Sys2Proof.Machine

set_option Elab.async false

/-! ### Well-formed commands (R118) -/

theorem test_jent_absent_is_not_wellFormed :
    (Instr.jentGet 0x400 32).wellFormed { Params.standard with hasJent := false } = false ∧
      Instr.jentNext.wellFormed { Params.standard with hasJent := false } = false ∧
      Instr.jentAvail.wellFormed { Params.standard with hasJent := false } = false := by decide

theorem test_drbg_absent_is_not_wellFormed :
    (Instr.drbgInit 0 0 72).wellFormed { Params.standard with hasDrbg := false } = false ∧
      (Instr.drbgGen 0x400 100).wellFormed { Params.standard with hasDrbg := false } = false ∧
      Instr.drbgReset.wellFormed { Params.standard with hasDrbg := false } = false ∧
      Instr.drbgDestroy.wellFormed { Params.standard with hasDrbg := false } = false := by decide

theorem test_core_units_are_wellFormed :
    (Instr.gcmAad 0x80 20).wellFormed { Params.standard with hasJent := false, hasDrbg := false } = true ∧
      (Instr.jentNext).wellFormed Params.standard = true := by decide

/-! ### Decoding: V-ENC, one word at least for every command -/

/-- The decoder with every unit present. -/
def dec (w0 w1 w2 w3 : Word) : Decoded := decode true true ⟨w0, w1, w2, w3⟩

theorem test_decode_sys :
    dec 0x00000000 0 0 0 = .command .sysNop ∧ dec 0x00000001 0 0 0 = .command .sysReset ∧
      dec 0x00030102 4 0 0x400 = .command (.sysSetpar 3 true 4 1024) ∧
      dec 0x00050002 0 0 0 = .command (.sysSetpar 5 false 0 0) := by decide

theorem test_decode_gh :
    dec 0x00000010 0x40 0 0 = .command (.ghInit 0x40) ∧
      dec 0x00000011 0x200 0 0x40 = .command (.ghUpdate 0x200 64) ∧
      dec 0x00000012 0x80 0 0x14 = .command (.ghSegment 0x80 20) ∧
      dec 0x00000013 0x14 0x500 0x3c = .command (.ghFinal 20 60 0x500) ∧
      dec 0x00000014 0 0 0 = .command .ghReset ∧ dec 0x00000015 0 0x600 0 = .command (.ghRead 0x600) ∧
      dec 0x00000016 0 0 0 = .command .ghDestroy := by decide

theorem test_decode_ctr :
    dec 0x00000020 0 0 0x26 = .command (.ctrInit 0 38) ∧
      dec 0x00000021 0x100 0x200 0x40 = .command (.ctrXform 0x100 0x200 64) ∧
      dec 0x00000022 0 0 0 = .command .ctrDestroy := by decide

theorem test_decode_gcm :
    dec 0x00000030 0 0 0x22 = .command (.gcmInit false false false 0 34) ∧
      dec 0x00000130 0 0 0x22 = .command (.gcmInit true false false 0 34) ∧
      dec 0x00000330 0 0 0x22 = .command (.gcmInit true true false 0 34) ∧
      dec 0x00000530 0 0 0x22 = .command (.gcmInit true false true 0 34) ∧
      dec 0x00000031 0x80 0 0x14 = .command (.gcmAad 0x80 20) ∧
      dec 0x00000032 0x100 0x200 0x40 = .command (.gcmXform 0x100 0x200 64) ∧
      dec 0x000c0033 0x200 0x40 0 = .command (.gcmFinal 0x200 64 12) ∧
      dec 0x000c0034 0x300 4 0 = .command (.gcmVerify 0x300 4 12) ∧
      dec 0x00000035 0 0 0 = .command .gcmDestroy := by decide

theorem test_decode_dg :
    dec 0x00000040 0 0 0x13 = .command (.dgInit .blake2b 0 19) ∧
      dec 0x00000140 0x80 0 0x13 = .command (.dgInit .keccak 0x80 19) ∧
      dec 0x00000041 0x100 0 0xc8 = .command (.dgUpdate 0x100 200) ∧
      dec 0x00000042 0 0x200 0 = .command (.dgFinal 0x200) ∧ dec 0x00000043 0 0 0 = .command .dgReset ∧
      dec 0x00000044 0x100 0x200 3 = .command (.dgCompute 0x100 0x200 3) ∧
      dec 0x00000045 0 0 0 = .command .dgDestroy := by decide

theorem test_decode_ss :
    dec 0x00140050 0 0 0x2e = .command (.ssInit 20 0 46) ∧
      dec 0x00000051 0x100 0x200 0x48 = .command (.ssXform 0x100 0x200 72) ∧
      dec 0x00000052 0 0 0 = .command .ssDestroy := by decide

theorem test_decode_jent :
    dec 0x00000060 0 0x400 0x20 = .command (.jentGet 0x400 32) ∧ dec 0x00000061 0 0 0 = .command .jentNext ∧
      dec 0x00000062 0 0 0 = .command .jentAvail := by decide

theorem test_decode_drbg :
    dec 0x00000070 0 0 0x48 = .command (.drbgInit 0 0 72) ∧ dec 0x00000170 0 0 0x50 = .command (.drbgInit 1 0 80) ∧
      dec 0x00000270 0 0 0x30 = .command (.drbgInit 2 0 48) ∧
      dec 0x00000071 0 0x400 0x64 = .command (.drbgGen 0x400 100) ∧ dec 0x00000072 0 0 0 = .command .drbgReset ∧
      dec 0x00000073 0 0 0 = .command .drbgDestroy := by decide

/-- The decoding errors of V-ENC, in the order of R116. -/
theorem test_decode_errors :
    dec 0x01000080 0 0 0 = .illegal .reservedNonzero ∧ dec 0x000000f0 0 0 0 = .illegal .illegalUnit ∧
      decode false true ⟨0x60, 0, 0x400, 0x20⟩ = .illegal .illegalUnit ∧
      decode true false ⟨0x70, 0, 0, 0x48⟩ = .illegal .illegalUnit ∧ dec 0x00000003 0 0 0 = .illegal .illegalOp ∧
      dec 0x00000017 0 0 0 = .illegal .illegalOp ∧ dec 0x00000035 1 0 0 = .illegal .reservedNonzero ∧
      dec 0x00000010 0x40 0 1 = .illegal .reservedNonzero ∧ dec 0x00000831 0x80 0 0x14 = .illegal .reservedNonzero ∧
      dec 0x00000830 0 0 0x22 = .illegal .reservedNonzero ∧
      dec 0x00010032 0x100 0x200 0x40 = .illegal .reservedNonzero ∧
      dec 0x00030202 2 0 0 = .illegal .reservedNonzero := by decide

/-- The table numbering: W0 lowest, W3 highest. -/
theorem test_table_word :
    decodeTableWord 128 (0x140050 + 46 * 2 ^ 96) = some (.ssInit 20 0 46) ∧ decodeTableWord 32 0x36 = none := by decide

/-! ### One command on a small state -/

/-- The machine after reset with the byte strings `l` in DMEM. -/
def fresh (l : List (Nat × Bytes)) : State :=
  { State.reset with dmem := l.foldl (fun m e => m.writeBytes e.1 e.2) [] }

/-- STATUS and a view of the state after a command. -/
def after {α : Type} (i : Instr) (s : State) (f : State → α) : Option (Word × α) :=
  match exec i s with
  | .next t => some (statusWord t.status, f t)
  | _ => none

/-- The `n` bytes of DMEM at `a`, as one big-endian number. -/
def peek (a n : Nat) (s : State) : Nat := beNat (s.dmem.readBytes a n)

/-- The first block of `C3`. -/
def c3 : Bytes := beBytes 16 0x42831ec2217774244b7221b784d0d49c

/-- The subkey `H3`. -/
def h3 : Block := 0xb83b533708bf535d0aa6e52980d53b78

/-- The container `KC3`: the key and the nonce of S3. -/
def kc3 : Bytes := beBytes 34 0x10000c000000feffe9928665731c6d6a8f9467308308cafebabefacedbaddecaf888

/-- A tree-parameter record without key: fanout and depth `p` and `d`, inner length `n`. -/
def rec (p d n : Byte) : Bytes := [64, 0, p, d] ++ zeros 13 ++ [n, 0]

/-- Unit GCM as GCM.INIT leaves it with `KC3`. -/
def gcmS3 (enc autoInc keepAd : Bool) : GcmUnit := GcmUnit.reset.init enc autoInc keepAd (parseContainer kc3)

/-- Unit DG as DG.INIT leaves it with a record. -/
def dgOf (alg : HashAlg) (r : Bytes) : DgUnit := DgUnit.init alg (parseDgRecord r)

/-- Unit SS keyed with 32 zero bytes. -/
def ssOf : SsUnit := SsUnit.reset.init 20 ⟨zeros 32, zeros 8, []⟩

/-- Unit CTR keyed as in P7. -/
def ctrP7 : CtrUnit :=
  { CtrUnit.reset with
    phase := .ready, key := beBytes 16 0x2b7e151628aed2a6abf7158809cf4f3c, c := 0xf0f1f2f3f4f5f6f7f8f9fafbfcfdfeff }

/-- Unit DRBG with 72 zero bytes of seed. -/
def drbgZ : DrbgUnit := DrbgUnit.init Params.standard 0 (zeros 72)

/-- A state with error fields and a verdict to be cleared. -/
def dirty : State :=
  { State.reset with
    status := { busy := true, err := true, vok := true, fault := true, ekind := 6, eunit := 2, ecause := 0x61 }
    result := 1 }

theorem test_sysNop_clears_error_fields : after .sysNop dirty (·.result) = some (0x10, 0) := by decide

theorem test_sysReset_clears_guard_and_profile :
    after .sysReset { State.reset with gcm := { gcmS3 true false false with par := ⟨true, 4, 1024⟩ }, ctr := ctrP7 }
      (fun t => (t.gcm, t.ctr)) = some (0, GcmUnit.reset, CtrUnit.reset) := by decide +kernel

theorem test_sysSetpar_gcm :
    after (.sysSetpar 3 true 4 1024) State.reset (fun t => (regRead t 0x30, regRead t 0x38)) =
      some (0, 0x02000400, 0x400) := by decide

theorem test_sysSetpar_errors :
    after (.sysSetpar 4 true 4 1024) State.reset (·.gcm.par) = some (0x003b0304, Par.reset) ∧
      after (.sysSetpar 3 true 4 1000) State.reset (·.gcm.par) = some (0x00320304, Par.reset) ∧
      after (.sysSetpar 3 true 8 1024) State.reset (·.gcm.par) = some (0x00310304, Par.reset) := by decide

theorem test_ghInit : after (.ghInit 0x40) (fresh [(0x40, blockBytes h3)]) (·.gh) = some (0, ⟨h3, 0⟩) := by
  decide +kernel

theorem test_ghInit_range : after (.ghInit 4081) { State.reset with gh := ⟨h3, 5⟩ } (·.gh) = some (0x00601604, ⟨0, 0⟩) := by
  decide

theorem test_ghUpdate :
    after (.ghUpdate 0x200 16) { fresh [(0x200, c3)] with gh := ⟨h3, 0⟩ } (·.gh.X) =
      some (0, 0x59ed3f2bb1a0aaa07c9f56c6a504647b) := by decide +kernel

theorem test_ghUpdate_align :
    after (.ghUpdate 0x100 17) { State.reset with gh := ⟨h3, 0⟩ } (·.gh) = some (0x00341304, ⟨0, 0⟩) := by decide

theorem test_ghSegment_pads :
    after (.ghSegment 0x80 20)
      { fresh [(0x80, beBytes 20 0xfeedfacedeadbeeffeedfacedeadbeefabaddad2)] with gh := ⟨h3, 0⟩ } (·.gh.X) =
      some (0, 0xcd47221ccef0554ee4bb044c88150352) := by decide +kernel

theorem test_ghFinal :
    after (.ghFinal 0 64 0x500) { State.reset with gh := ⟨h3, 0x4796cf49464704b5dd91f159bb1b7f95⟩ }
      (fun t => (t.gh.X, peek 0x500 16 t)) =
      some (0, 0x7f1b32b81b820d02614f8895ac1d4eac, 0x7f1b32b81b820d02614f8895ac1d4eac) := by decide +kernel

theorem test_ghReset : after .ghReset { State.reset with gh := ⟨h3, 7⟩ } (·.gh) = some (0, ⟨h3, 0⟩) := by decide

theorem test_ghRead_at_the_end_of_DMEM :
    after (.ghRead 4080) { State.reset with gh := ⟨h3, 0x59ed3f2bb1a0aaa07c9f56c6a504647b⟩ }
      (fun t => (peek 4080 16 t, t.gh.H)) = some (0, 0x59ed3f2bb1a0aaa07c9f56c6a504647b, h3) := by decide +kernel

theorem test_ghDestroy : after .ghDestroy { State.reset with gh := ⟨h3, 7⟩ } (·.gh) = some (0, ⟨0, 0⟩) := by decide

theorem test_ctrInit :
    after (.ctrInit 0 38)
      (fresh [(0, [16, 0, 16, 0, 0, 0] ++ ctrP7.key ++ blockBytes ctrP7.c)]) (·.ctr) = some (0, ctrP7) := by
  decide +kernel

theorem test_ctrInit_container :
    after (.ctrInit 0 38) { State.reset with ctr := ctrP7 } (·.ctr) = some (0x00102104, CtrUnit.reset) := by
  decide +kernel

theorem test_ctrXform :
    after (.ctrXform 0x100 0x200 16)
      { fresh [(0x100, beBytes 16 0x6bc1bee22e409f96e93d7e117393172a)] with ctr := ctrP7 }
      (fun t => (peek 0x200 16 t, t.ctr.c)) =
      some (0, 0x874d6191b620e3261bef6864990db6ce, 0xf0f1f2f3f4f5f6f7f8f9fafbfcfdff00) := by decide +kernel

theorem test_ctrXform_overlap :
    after (.ctrXform 0x100 0x108 16) { State.reset with ctr := ctrP7 } (fun t => (t.ctr, t.dmem)) =
      some (0x00352304, CtrUnit.reset, []) := by decide +kernel

theorem test_ctrDestroy_keeps_profile :
    after .ctrDestroy { State.reset with ctr := { ctrP7 with par := ⟨true, 2, 256⟩ } } (·.ctr) =
      some (0, { CtrUnit.reset with par := ⟨true, 2, 256⟩ }) := by decide +kernel

theorem test_gcmInit :
    after (.gcmInit true false false 0 34) (fresh [(0, kc3)])
      (fun t => (t.gcm.H, t.gcm.J0, t.gcm.c, t.gcm.guardN.length, phasesWord t)) =
      some (0, h3, 0xcafebabefacedbaddecaf88800000001, 0xcafebabefacedbaddecaf88800000002, 12, 0x1000) := by
  decide +kernel

theorem test_gcmInit_repeat :
    after (.gcmInit false false false 0 34) { fresh [(0, kc3)] with gcm := gcmS3 true false false }
      (fun t => (t.gcm.key, t.gcm.guardValid, t.gcm.guardN)) =
      some (0x00143104, [], true, beBytes 12 0xcafebabefacedbaddecaf888) := by decide +kernel

theorem test_gcmAad :
    after (.gcmAad 0x80 20)
      { fresh [(0x80, beBytes 20 0xfeedfacedeadbeeffeedfacedeadbeefabaddad2)] with gcm := gcmS3 true true true }
      (fun t => (t.gcm.X, t.gcm.aadSize, t.gcm.aadKept, phasesWord t)) =
      some (0, 0xcd47221ccef0554ee4bb044c88150352, 20, true, 0x2000) := by decide +kernel

theorem test_gcmXform :
    after (.gcmXform 0x100 0x200 16)
      { fresh [(0x100, beBytes 16 0xd9313225f88406e5a55909c5aff5269a)] with gcm := gcmS3 true false false }
      (fun t => (peek 0x200 16 t, t.gcm.X, t.gcm.tail)) =
      some (0, 0x42831ec2217774244b7221b784d0d49c, 0x59ed3f2bb1a0aaa07c9f56c6a504647b, false) := by decide +kernel

/-- Unit GCM after the four ciphertext blocks of S3. -/
def gcmS3done (enc autoInc : Bool) : GcmUnit :=
  { gcmS3 enc autoInc false with
    phase := .transforming, X := 0x4796cf49464704b5dd91f159bb1b7f95, msgSize := 64 }

theorem test_gcmFinal :
    after (.gcmFinal 0x2F0 16 16) { State.reset with gcm := gcmS3done true false }
      (fun t => (peek 0x300 16 t, phasesWord t)) = some (0, 0x4d5c2af327cd64a62cf35abd2ba6fab4, 0x4000) := by
  decide +kernel

theorem test_gcmFinal_autoinc :
    after (.gcmFinal 0x300 0 12) { State.reset with gcm := gcmS3done true true }
      (fun t => (peek 0x300 13 t, t.gcm.J0, beNat t.gcm.guardN, phasesWord t)) =
      some (0, 0x4d5c2af327cd64a62cf35abd00, 0xcafebabefacedbaddecaf88900000001, 0xcafebabefacedbaddecaf889, 0x1000) := by decide +kernel

theorem test_gcmVerify_equal :
    after (.gcmVerify 0x300 4 12)
      { fresh [(0x304, beBytes 12 0x4d5c2af327cd64a62cf35abd)] with gcm := gcmS3done false false } (·.result) =
      some (0x08, 1) := by decide +kernel

theorem test_gcmVerify_different :
    after (.gcmVerify 0x300 0 16)
      { fresh [(0x300, beBytes 16 0x4d5c2af327cd64a62cf35abd2ba6fab5)] with gcm := gcmS3done false false }
      (fun t => (t.result, phasesWord t)) = some (0, 0, 0x4000) := by decide +kernel

theorem test_gcmDestroy_clears_guard :
    after .gcmDestroy { State.reset with gcm := gcmS3done true true } (·.gcm) = some (0, GcmUnit.reset) := by
  decide +kernel

theorem test_dgInit :
    after (.dgInit .blake2b 0 19) (fresh [(0, rec 2 2 64)])
      (fun t => (t.dg.leaves.length, (t.dg.leaves.map fun l => l.h[0]), phasesWord t)) =
      some (0, 2, [0x6a09e667f1bec948, 0x6a09e667f1bec948], 0x10000) := by decide +kernel

theorem test_dgInit_fanout :
    after (.dgInit .blake2b 0 19) (fresh [(0, rec 3 2 64)]) (·.dg) = some (0x00314304, DgUnit.reset) := by
  decide +kernel

theorem test_dgUpdate_is_lazy :
    after (.dgUpdate 0 512) { State.reset with dg := dgOf .blake2b (rec 2 2 64) }
      (fun t => (t.dg.buf.length, t.dg.leaves.map fun l => l.t)) = some (0, 512, [0, 0]) := by decide +kernel

theorem test_dgFinal_empty_tree :
    after (.dgFinal 0x440) { State.reset with dg := dgOf .blake2b (rec 2 2 64) } (peek 0x440 64) =
      some (0, 0x380782a9df3b0dc279f1b3a290cd98558743509c0d827b807f121d605a843d362bdbd23c8df0d20d706fa2c533b7e115875ec5ceee6ad817e7cbcf79e6260e65) := by
  decide +kernel

theorem test_dgFinal_uninit :
    after (.dgFinal 0) State.reset (·.dg) = some (0x00204204, DgUnit.reset) := by decide

theorem test_dgReset_starts_again :
    after .dgReset { State.reset with dg := { dgOf .blake2b (rec 1 1 0) with buf := [1, 2, 3] } } (·.dg) =
      some (0, dgOf .blake2b (rec 1 1 0)) := by decide +kernel

theorem test_dgCompute_blake2b :
    after (.dgCompute 0x100 0x500 0) { State.reset with dg := dgOf .blake2b (rec 1 1 0) } (peek 0x500 64) =
      some (0, 0x786a02f742015903c6c6fd852552d272912f4740e15847618a86e217f71f5419d25e1031afee585313896444934eb04b903a685b1448b755d56f701afe9be2ce) := by
  decide +kernel

theorem test_dgCompute_keccak :
    after (.dgCompute 0x100 0x4C0 3) { fresh [(0x100, [0, 1, 2])] with dg := dgOf .keccak (rec 1 1 0) }
      (peek 0x4C0 64) =
      some (0, 0xb914cef4c879a4099d8b8ad040cb12738f03d481c35323e03c6a886cacf225e34e5cddac704a97a8358c09d74fd78d5aac7f44154a1c58be9feef59b47063cbf) := by
  decide +kernel

theorem test_dgDestroy :
    after .dgDestroy { State.reset with dg := dgOf .keccak (rec 2 2 64) } (·.dg) = some (0, DgUnit.reset) := by
  decide +kernel

theorem test_ssInit :
    after (.ssInit 20 0 46) (fresh [(0, [32, 0, 8, 0, 0, 0] ++ zeros 40)]) (·.ss) = some (0, ssOf) := by
  decide +kernel

theorem test_ssInit_errors :
    after (.ssInit 7 0xfff0 38) { State.reset with ss := ssOf } (·.ss) = some (0x00335304, SsUnit.reset) ∧
      after (.ssInit 20 0 38) (fresh [(0, [24, 0, 8, 0, 0, 0])]) (·.ss) = some (0x00115104, SsUnit.reset) := by
  decide +kernel

theorem test_ssXform :
    after (.ssXform 0x100 0x200 8) { State.reset with ss := ssOf } (fun t => (peek 0x200 8 t, ssCounter t.ss.s)) =
      some (0, 0x9a97f65b9b4c721b, 1) := by decide +kernel

theorem test_ssXform_empty :
    after (.ssXform 0xffffffff 0xffffffff 0) { State.reset with ss := ssOf } (·.ss) = some (0, ssOf) := by
  decide +kernel

theorem test_ssDestroy : after .ssDestroy { State.reset with ss := ssOf } (·.ss) = some (0, SsUnit.reset) := by
  decide +kernel

/-- Unit JENT that is not available. -/
def jentOff : State := { State.reset with jent := { JentUnit.reset with available := false } }

theorem test_jentGet : after (.jentGet 0x400 32) State.reset (fun t => (t.jent.available, t.draws)) = some (0, true, 33) := by
  decide

theorem test_jentGet_unavailable : after (.jentGet 0x400 0) jentOff (·.dmem) = some (0x00506504, []) := by decide

theorem test_jentNext : after .jentNext State.reset (·.result) = some (0, Config.jentWord 0) := rfl

theorem test_jentAvail :
    after .jentAvail State.reset (·.result) = some (0, 1) ∧ after .jentAvail jentOff (·.result) = some (0, 0) := by
  decide

theorem test_drbgInit :
    after (.drbgInit 0 0 72) State.reset (fun t => (t.drbg.phase, t.drbg.seed.length, t.drbg.buf.length, t.drbg.idx)) =
      some (0, .ready, 72, 64, 0) := by decide +kernel

theorem test_drbgInit_seed : after (.drbgInit 0 0 71) State.reset (·.drbg.phase) = some (0x00167104, .uninit) := by
  decide

theorem test_drbgGen_refills :
    after (.drbgGen 0x400 100) { State.reset with drbg := drbgZ } (·.drbg.idx) = some (0, 36) := by decide +kernel

theorem test_drbgReset_draws_a_seed :
    after .drbgReset { State.reset with drbg := drbgZ } (fun t => (t.drbg.seed.length, t.draws)) = some (0, 72, 72) := by
  decide +kernel

theorem test_drbgReset_unavailable :
    after .drbgReset { jentOff with drbg := { drbgZ with gstate := [] } } (·.drbg.phase) =
      some (0x00507504, .uninit) := by decide +kernel

theorem test_drbgDestroy :
    after .drbgDestroy { State.reset with drbg := { drbgZ with kind := 2 } } (fun t => (t.drbg.phase, t.drbg.kind)) =
      some (0, .uninit, 0) := by decide

/-- STATUS and PHASES after a step of the machine that runs a descriptor. -/
def stepped (w0 w1 w2 w3 : Nat) (s : State) : Option (Word × Word) :=
  match step (s.withFetchWord 128 (w0 + w1 * 2 ^ 32 + w2 * 2 ^ 64 + w3 * 2 ^ 96)) with
  | .next t => some (statusWord t.status, phasesWord t)
  | _ => none

theorem test_step_runs_the_descriptor :
    stepped 0x130 0 0 0x22 (fresh [(0, kc3)]) = some (0, 0x1000) ∧
      stepped 0x36 0 0 0 { State.reset with gcm := gcmS3 true false false } = some (0x00020304, 0x1000) ∧
      stepped 0x35 1 0 0 { State.reset with gcm := gcmS3 true false false } = some (0x00030304, 0x1000) := by
  decide +kernel

theorem test_assembler :
    assemble (.sysSetpar 3 true 4 1024) = some "sys.setpar gcm, on, 4, 1024" ∧
      assemble (.gcmInit true true false 0 34) = some "gcm.init enc, autoinc, 0, 34" := by decide +kernel

/-! ### Witnesses: the hypotheses of the statements can be met -/

/-- The machine with a command issued. -/
def due (i : Instr) (s : State) : State := s.withFetchWord 128 (encode i).bits

/-- The machine with a move of the host next. -/
def told (m : HostMove) (early : Bool) (s : State) : State := { s with inbox := [⟨m, early⟩] }

/-- A machine with an empty command issued. -/
def busy : State := { State.reset with status := { Status.reset with busy := true } }

/-- Units after a first use. -/
def inGcm (u : GcmUnit) : State := { State.reset with gcm := u }
/-- See `inGcm`. -/
def inDg : State := { State.reset with dg := dgOf .keccak (rec 2 2 64) }
/-- See `inGcm`. -/
def inDrbg : State := { State.reset with drbg := drbgZ }

theorem witness_DecodeEncode : (Instr.jentGet 0xffffffff 0).wellFormed Params.standard = true := by decide

theorem witness_EncodeDecode :
    decode Params.standard.hasJent Params.standard.hasDrbg ⟨0x00140050, 0, 0, 46⟩ = .command (.ssInit 20 0 46) := by decide

theorem witness_DecodeOrder_reserved : (0x01000000#32).toNat / 2 ^ 24 ≠ 0 ∧ (0x00ff0000#32).toNat / 2 ^ 24 = 0 := by
  decide

theorem witness_DecodeOrder_absent :
    (8 ≤ (Desc.mk 0x80 0 0 0).unit.toNat) ∧ ¬ 8 ≤ (Desc.mk 0x7f 0 0 0).unit.toNat ∧ (Desc.mk 0x60 0 0 0).unit = 6 ∧
      (Desc.mk 0x70 0 0 0).unit = 7 := by decide

theorem witness_DecodeOrder_operation :
    (∀ r ∈ opTable, r.opcode ≠ (Desc.mk 0x36 0 0 0).opcode) ∧
      (∃ r ∈ opTable, r.opcode = (Desc.mk 0x35 0 0 0).opcode) := by decide

theorem witness_StepRunsCommand :
    ∃ t, commandDue (due .jentAvail State.reset) ∧ (due .jentAvail State.reset).decoded = .command .jentAvail ∧
      exec .jentAvail (due .jentAvail State.reset) = .next t := ⟨_, ⟨rfl, rfl, rfl⟩, by decide, rfl⟩

theorem witness_StepReportsDecodeError (e : DecodeError) :
    ∃ s, commandDue s ∧ s.decoded = .illegal e ∧ s.status.fault = false :=
  match e with
  | .illegalUnit => ⟨State.reset.withFetchWord 128 0x80, ⟨rfl, rfl, rfl⟩, by decide, rfl⟩
  | .illegalOp => ⟨State.reset.withFetchWord 128 0x36, ⟨rfl, rfl, rfl⟩, by decide, rfl⟩
  | .reservedNonzero => ⟨State.reset.withFetchWord 128 0x01000000, ⟨rfl, rfl, rfl⟩, by decide, rfl⟩

theorem witness_FetchWordIsRun : (Instr.drbgInit 3 0 0).wellFormed State.reset.cfg = true := by decide

theorem witness_DescriptorWrites_idle :
    ∀ offset ∈ [0x20, 0x24, 0x28, 0x2C], (told (.writeReg 4 offset 7) false State.reset).status.busy = false ∧
      (told (.writeReg 4 offset 7) false State.reset).status.fault = false ∧
      (told (.writeReg 4 offset 7) false State.reset).inbox = ⟨.writeReg 4 offset 7, false⟩ :: [] := by decide

theorem witness_DescriptorWrites_busy :
    (told (.writeReg 4 0x2C 7) true busy).status.busy = true ∧
      (told (.writeReg 4 0x2C 7) true busy).status.fault = false ∧
      (told (.writeReg 4 0x2C 7) true busy).inbox = ⟨.writeReg 4 0x2C 7, true⟩ :: [] ∧
      0x2C ∈ [0x20, 0x24, 0x28, 0x2C] := by decide

theorem witness_RegisterMap :
    (0x1C % 4 = 0 ∧ (0x1C = 0x1C ∨ (0x40 ≤ 0x1C ∧ 0x1C < 256))) ∧ (0x40 % 4 = 0 ∧ (0x40 = 0x1C ∨ (0x40 ≤ 0x40 ∧ 0x40 < 256))) ∧
      0x30 ∉ [0x20, 0x24, 0x28, 0x2C] ∧ 0x10 ≤ 0x10 := by decide

theorem witness_RegisterMap_step :
    252 % 4 = 0 ∧ 252 < 256 ∧ 252 ∉ [0x20, 0x24, 0x28, 0x2C] ∧
      (told (.writeReg 4 252 7) true busy).status.fault = false ∧
      (told (.writeReg 4 252 7) true busy).inbox = ⟨.writeReg 4 252 7, true⟩ :: [] := by decide

theorem witness_HostAccess_register :
    252 % 4 = 0 ∧ 252 < 256 ∧ ((told (.readReg 4 252) true busy).status.busy = true → true = true) ∧
      (told (.readReg 4 252) true busy).inbox = ⟨.readReg 4 252, true⟩ :: [] := by decide

theorem witness_HostAccess_form :
    (told (.readReg 2 252) false State.reset).status.fault = false ∧
      (told (.readReg 2 252) false State.reset).inbox = ⟨.readReg 2 252, false⟩ :: [] ∧ (2 ≠ 4 ∨ 252 % 4 ≠ 0) ∧
      (4 ≠ 4 ∨ 254 % 4 ≠ 0) ∧ 256 % 4 = 0 ∧ 256 ≤ 256 := by decide

theorem witness_HostAccess_dmem :
    inDmem State.reset 4095 1 ∧ ¬ inDmem State.reset 4095 2 ∧
      (told (.readDmem 4095 1) false State.reset).status.busy = false ∧
      (told (.readDmem 4095 1) false State.reset).status.fault = false ∧
      (told (.readDmem 4095 1) false State.reset).inbox = ⟨.readDmem 4095 1, false⟩ :: [] ∧
      (told (.writeDmem 4095 [1]) false State.reset).dmem.wf ∧
      (told (.writeDmem 4095 [1]) false State.reset).inbox = ⟨.writeDmem 4095 [1], false⟩ :: [] := by decide

theorem witness_HostAccess_dmem_busy :
    (told (.readDmem 0 4) true busy).status.busy = true ∧ (told (.readDmem 0 4) true busy).status.fault = false ∧
      (told (.readDmem 0 4) true busy).inbox = ⟨.readDmem 0 4, true⟩ :: [] ∧
      (told (.writeDmem 0 [1]) true busy).inbox = ⟨.writeDmem 0 [1], true⟩ :: [] := by decide

/-- A machine in the fault state. -/
def broken : State := { State.reset with status := { Status.reset with fault := true } }

theorem witness_HostAccess_fault : broken.status.fault = true ∧ ∀ e rest, broken.inbox ≠ ⟨.hardReset, e⟩ :: rest :=
  ⟨rfl, nofun⟩

/-- STATUS after a step, when there is a next state. -/
def stepStatus (s : State) : Option Word :=
  match step s with
  | .next t => some (statusWord t.status)
  | _ => none

/-- R450: the forbidden moves set FAULT, after which only a hardware reset is a step. -/
theorem test_fault :
    stepStatus (told (.writeReg 4 0x20 1) true busy) = some 0x11 ∧ stepStatus (told (.readDmem 0 4) true busy) = some 0x11 ∧
      stepStatus (told (.writeDmem 0 [1]) true busy) = some 0x11 ∧ stepStatus (told (.readReg 4 0x10) true busy) = some 1 ∧
      stepStatus (told (.readReg 4 0x10) false broken) = none ∧ stepStatus broken = none ∧
      stepStatus (told .hardReset false broken) = some 0 := by decide

/-- The standard build is the machine of `core`: the same reset state. -/
theorem test_build : (build Params.standard).reset.1 = State.reset := rfl

theorem witness_CapFields : Params.standard.legal ∧ ∃ t, step busy = .next t := ⟨by decide, _, rfl⟩

theorem witness_CapFields_build : ∃ t, buildStep Params.standard ⟨busy, rfl⟩ = .next t := ⟨_, rfl⟩

theorem witness_StatusWordOfError :
    ∃ t, exec (.ghInit 4081) State.reset = .next t ∧ t.status.err = true := ⟨_, rfl, rfl⟩

theorem witness_ProfileRegisters : ∃ t, step (due (.sysSetpar 2 true 2 256) State.reset) = .next t := ⟨_, rfl⟩

theorem witness_HardResetState :
    ((told .hardReset false State.reset).status.busy = true →
        (told .hardReset false State.reset).status.fault = false → false = true) ∧
      ((told .hardReset false broken).status.busy = true → (told .hardReset false broken).status.fault = false →
        false = true) ∧
      (told .hardReset true busy).inbox = ⟨.hardReset, true⟩ :: [] := by decide

theorem witness_ErrorsArePrecise_sys_jent :
    (∃ t, exec (.sysSetpar 4 true 0 0) State.reset = .next t ∧ t.status.err = true) ∧
      ∃ t, exec .jentNext jentOff = .next t ∧ t.status.err = true := ⟨⟨_, rfl, rfl⟩, _, rfl, rfl⟩

theorem witness_ErrorsArePrecise_gh_ctr :
    (∃ t, exec (.ghUpdate 0 1) State.reset = .next t ∧ t.status.err = true) ∧
      ∃ t, exec (.ctrXform 0 0 0) State.reset = .next t ∧ t.status.err = true := ⟨⟨_, rfl, rfl⟩, _, rfl, rfl⟩

theorem witness_ErrorsArePrecise_gcm :
    (∃ t, exec (.gcmAad 0 0) (inGcm { GcmUnit.reset with phase := .finalized }) = .next t ∧ t.status.err = true) ∧
      ∃ t, exec (.gcmAad 0 0) (inGcm { GcmUnit.reset with phase := .aadLoaded }) = .next t ∧ t.status.err = true :=
  ⟨⟨_, rfl, rfl⟩, _, rfl, rfl⟩

theorem witness_ErrorsArePrecise_dg_ss_drbg :
    (∃ t, exec .dgReset State.reset = .next t ∧ t.status.err = true) ∧
      (∃ t, exec (.ssInit 31 0 0) State.reset = .next t ∧ t.status.err = true) ∧
      ∃ t, exec .drbgReset State.reset = .next t ∧ t.status.err = true :=
  ⟨⟨_, rfl, rfl⟩, ⟨_, rfl, rfl⟩, _, rfl, rfl⟩

theorem witness_SuccessfulEnd :
    (∃ t, exec .jentAvail State.reset = .next t ∧ t.status.err = false ∧ t.result ≠ 0) ∧
      ∃ t, exec .drbgReset State.reset = .next t ∧ t.status.err = true :=
  ⟨⟨_, rfl, rfl, by decide⟩, _, rfl, rfl⟩

/-- A decrypting session that is finalized with tag 0: twelve zero bytes of DMEM verify. -/
theorem witness_SuccessfulEnd_verify :
    ∃ t, exec (.gcmVerify 0 0 12) (inGcm { GcmUnit.reset with phase := .finalized }) = .next t ∧
      t.status.err = false ∧ t.status.vok = true ∧ t.result ≠ 0 := ⟨_, rfl, rfl, by decide +kernel, by decide +kernel⟩

theorem witness_OnlyOwnUnit : (∃ t, exec .ghReset State.reset = .next t) ∧ (Instr.ghReset).unit ≠ .sys :=
  ⟨⟨_, rfl⟩, by decide⟩

theorem witness_WritesOnlyItsRange :
    State.reset.dmem.wf ∧ (∃ t, exec .ghReset State.reset = .next t) ∧ (Instr.ghReset).writes = none ∧
      (∃ t, exec (.ghRead 16) State.reset = .next t) ∧ (Instr.ghRead 16).writes = some (16, 16) ∧
      (15 < 16 ∨ 16 + 16 ≤ 15) ∧ (32 < 16 ∨ 16 + 16 ≤ 32) :=
  ⟨by decide, ⟨_, rfl⟩, rfl, ⟨_, rfl⟩, rfl, by decide, by decide⟩

theorem witness_ReadsOnlyItsRange :
    ∀ b, (Instr.ghInit 16).reads.1 ≤ b → b < (Instr.ghInit 16).reads.1 + (Instr.ghInit 16).reads.2 →
      Memory.readByte [(15, 1), (32, 1)] b = State.reset.dmem.readByte b := by
  intro b h1 h2
  have h3 : 16 ≤ b := h1
  have h4 : b < 32 := h2
  interval_cases b <;> rfl

theorem witness_GuardSurvives_kept :
    (∃ t, exec (.gcmAad 0 0) (inGcm { GcmUnit.reset with phase := .ready }) = .next t) ∧
      (∃ t, exec .ghReset State.reset = .next t) ∧ (Instr.ghReset).unit ≠ .gcm ∧ Instr.ghReset ≠ .sysReset :=
  ⟨⟨_, rfl⟩, ⟨_, rfl⟩, by decide, by decide⟩

theorem witness_GuardSurvives_written :
    ∃ t, exec (.gcmInit true false false 0 34) (fresh [(0, kc3)]) = .next t ∧ t.status.err = false :=
  ⟨_, rfl, by decide +kernel⟩

theorem witness_GuardSurvives_tag :
    (∃ t, exec (.gcmFinal 0 0 16) (inGcm { GcmUnit.reset with phase := .ready, autoInc := true, N := [1] }) = .next t ∧
        t.status.err = false) ∧
      (∃ t, exec (.gcmFinal 0 0 16) (inGcm { GcmUnit.reset with phase := .finalized, autoInc := true }) = .next t ∧
        t.status.err = false) ∧
      (∃ t, exec (.gcmVerify 0 0 12) (inGcm { GcmUnit.reset with phase := .ready }) = .next t ∧ t.status.err = false) ∧
      (∃ t, exec .gcmDestroy State.reset = .next t) ∧ ∃ t, exec .sysReset State.reset = .next t :=
  ⟨⟨_, rfl, rfl⟩, ⟨_, rfl, rfl⟩, ⟨_, rfl, rfl⟩, ⟨_, rfl⟩, _, rfl⟩

theorem witness_JentAvailableConstant : ∃ t, step (due .jentNext State.reset) = .next t := ⟨_, rfl⟩

theorem witness_ProfilesNeverMatter :
    State.reset.withoutParallel =
        { State.reset with
          cfg := { Params.standard with nproc := 8, lanes := 8 }
          ctr := { CtrUnit.reset with par := ⟨true, 2, 1024⟩ } }.withoutParallel ∧
      (∀ u e d b, Instr.ctrXform 0 0 16 ≠ .sysSetpar u e d b) ∧ ¬ ∃ alg a n, Instr.ctrXform 0 0 16 = .dgInit alg a n :=
  ⟨by decide, nofun, by rintro ⟨_, _, _, h⟩; cases h⟩

theorem witness_UninitRefuses :
    State.reset.ctr.phase = .uninit ∧ State.reset.gcm.phase = .uninit ∧ State.reset.dg.phase = .uninit ∧
      State.reset.ss.phase = .uninit ∧ State.reset.drbg.phase = .uninit := by decide

theorem witness_CauseTable : Cause.rounds.code = Cause.rounds.code ∧ Cause.rounds.code ≠ Cause.parBlock.code := by decide

theorem witness_ResetMeetsInvariant :
    Params.legal ⟨64, 8, 1, 0, false, false, 64, 0⟩ ∧ Params.legal ⟨2 ^ 32 - 1, 4, 254, 2 ^ 32 - 1, true, true, 65, 1⟩ := by
  decide

theorem witness_StepKeepsMemory : ∃ t, memoryOk (due (.ghRead 4080) State.reset) ∧
    step (due (.ghRead 4080) State.reset) = .next t := ⟨_, by unfold memoryOk; decide +kernel, rfl⟩

theorem witness_StepKeepsStatus : ∃ t, busy.status.coherent busy.result ∧ step busy = .next t :=
  ⟨_, by unfold Status.coherent; decide, rfl⟩

theorem witness_StepKeepsStatus_protocol :
    protocolKept (told (.readReg 4 0) false State.reset) ∧
      ∃ t, step (told (.readReg 4 0) false State.reset) = .next t :=
  ⟨by unfold protocolKept; decide, _, rfl⟩

theorem witness_StepKeepsGcm :
    ∃ t, (due (.gcmAad 0 0) (inGcm (gcmS3 true true true))).gcm.ok Params.standard ∧
      step (due (.gcmAad 0 0) (inGcm (gcmS3 true true true))) = .next t :=
  ⟨_, by unfold GcmUnit.ok GcmUnit.inSession; decide +kernel, rfl⟩

theorem witness_StepKeepsInvariant : ∃ t, busy.inv ∧ step busy = .next t := by
  refine ⟨_, ⟨by decide, ?_, ?_, ?_, ?_, ?_, .inl (by decide +kernel), ?_, ?_, .inl (by decide +kernel)⟩, rfl⟩
  · unfold Status.coherent; decide
  · unfold memoryOk; decide
  · unfold profilesOk Par.ok; decide
  · unfold CtrUnit.ok; decide +kernel
  · unfold GcmUnit.ok GcmUnit.inSession; decide +kernel
  · unfold SsUnit.ok; decide +kernel
  · unfold JentUnit.ok; decide

theorem witness_SysSetparEffect :
    State.reset.cfg.legal ∧ State.reset.cfg.nproc = 4 ∧ (2 ≤ (4#32).toNat ∧ (4#32).toNat % 2 = 0 ∧ (4#32).toNat ≤ 4) ∧
      ¬ (2 ≤ (1#32).toNat ∧ (1#32).toNat % 2 = 0 ∧ (1#32).toNat ≤ 4) ∧
      ¬ (2 ≤ (6#32).toNat ∧ (6#32).toNat % 2 = 0 ∧ (6#32).toNat ≤ 4) ∧ (256#32).toNat % (4 * 16 * 4) = 0 ∧
      (1024#32).toNat % (4 * 64 * 4) = 0 ∧ (255#32).toNat % (4 * 16 * 4) ≠ 0 := by decide

theorem witness_GhInitEffect :
    (4080#32).toNat + 16 ≤ State.reset.cfg.dmemSize ∧ State.reset.cfg.dmemSize < (4081#32).toNat + 16 := by decide

theorem witness_GhAbsorbEffect :
    (4080#32).toNat + (16#32).toNat ≤ State.reset.cfg.dmemSize ∧ (16#32).toNat % 16 = 0 ∧
      ¬ (16 = 0 ∨ (4081#32).toNat + (16#32).toNat ≤ State.reset.cfg.dmemSize) ∧ (15#32).toNat % 16 ≠ 0 ∧
      (0#32).toNat = 0 := by decide

theorem witness_GhFinalAndRead :
    State.reset.dmem.wf ∧ (4080#32).toNat + 16 ≤ State.reset.cfg.dmemSize ∧
      State.reset.cfg.dmemSize < (4081#32).toNat + 16 := by decide

theorem witness_GhashSplit : (zeros 16).length % 16 = 0 ∧ ([] : Bytes).length % 16 = 0 := by decide

theorem witness_GhashLinear : (zeros 17).length = c3.length + 1 := by decide

theorem witness_ContainerRoundTrip :
    (zeros 16).length < 65536 ∧ ([] : Bytes).length < 65536 ∧ containerFits kc3 = true ∧ containerFits (zeros 6) = true := by
  decide +kernel

theorem witness_CtrInitEffect :
    (zeros 32).length ∈ [16, 24, 32] ∧ (zeros 16).length = 16 ∧
      holds (fresh [(0, containerBytes (zeros 32) (zeros 16) [])]) 0 54 (containerBytes (zeros 32) (zeros 16) []) := by
  unfold holds
  decide +kernel

/-- A container as the host has put it at address 0. -/
def kcOf (k n i : Nat) : Bytes := containerBytes (zeros k) (zeros n) (zeros i)

/-- The first failing check of CTR.INIT is each of the five. -/
theorem witness_CtrInitEffect_errors :
    ¬ inDmem State.reset 4059 38 ∧ inDmem State.reset 4058 38 ∧ containerMisfit (zeros 5) ∧ containerMisfit (zeros 7) ∧
      ¬ containerMisfit (kcOf 15 16 0) ∧ (parseContainer (kcOf 15 16 0)).key.length ∉ [16, 24, 32] ∧
      ¬ containerMisfit (kcOf 16 15 0) ∧ (parseContainer (kcOf 16 15 0)).key.length ∈ [16, 24, 32] ∧
      (parseContainer (kcOf 16 15 0)).nonce.length ≠ 16 ∧ ¬ containerMisfit (kcOf 24 16 1) ∧
      (parseContainer (kcOf 24 16 1)).nonce.length = 16 ∧ (parseContainer (kcOf 24 16 1)).info.length ≠ 0 := by
  decide +kernel

/-- The range checks of the transforms, with a destination that begins at the last byte of the source. -/
theorem witness_xformError :
    xformError State.reset 4081 0 16 = some .srcRange ∧ xformError State.reset 4080 4081 16 = some .dstRange ∧
      xformError State.reset 0 15 16 = some .overlap ∧ xformError State.reset 15 0 16 = some .overlap ∧
      xformError State.reset 0 16 16 = none ∧ xformError State.reset 0 0 16 = none ∧
      xformError State.reset 5000 5001 0 = none := by decide

theorem witness_CtrXformEffect :
    ({ State.reset with ctr := ctrP7 }).dmem.wf ∧ ctrP7.phase = .ready ∧ (0#32).toNat = 0 ∧
      ((4080#32).toNat + (16#32).toNat ≤ 4096 ∧ (0#32).toNat + (16#32).toNat ≤ 4096 ∧
        (0#32).toNat + (16#32).toNat ≤ (16#32).toNat) := by decide

theorem witness_GcmInitEffect (nonce : Bytes) (h : nonce ∈ [zeros 8, zeros 12, zeros 16]) :
    (zeros 16).length ∈ [16, 24, 32] ∧ 8 ≤ nonce.length ∧ nonce.length ≤ 16 ∧
      holds (fresh [(0, containerBytes (zeros 16) nonce [])]) 0 (BitVec.ofNat 32 (22 + nonce.length))
        (containerBytes (zeros 16) nonce []) := by
  unfold holds
  simp only [List.mem_cons, List.not_mem_nil, or_false] at h
  rcases h with rfl | rfl | rfl <;> decide +kernel

/-- GCM.INIT differs from CTR.INIT in its nonces: 7 and 17 bytes are errors, 8 and 16 are not. -/
theorem witness_GcmInitEffect_errors :
    ¬ inDmem State.reset 4059 38 ∧ containerMisfit (zeros 5) ∧ ¬ containerMisfit (kcOf 17 12 0) ∧
      (parseContainer (kcOf 17 12 0)).key.length ∉ [16, 24, 32] ∧ (parseContainer (kcOf 16 7 0)).nonce.length < 8 ∧
      16 < (parseContainer (kcOf 16 17 0)).nonce.length ∧ ¬ containerMisfit (kcOf 16 7 0) ∧
      ¬ containerMisfit (kcOf 16 17 0) ∧ ¬ containerMisfit (kcOf 16 8 1) ∧
      (parseContainer (kcOf 16 8 1)).info.length ≠ 0 := by decide +kernel

theorem witness_GcmInitEffect_repeat :
    (gcmS3 true false false).guardValid = true ∧ (gcmS3 true false false).guardKey = (parseContainer kc3).key ∧
      (gcmS3 true false false).guardN = (parseContainer kc3).nonce ∧
      ¬ (GcmUnit.reset.guardValid = true ∧ GcmUnit.reset.guardKey = zeros 16 ∧ GcmUnit.reset.guardN = zeros 12) := by
  decide +kernel

theorem witness_GcmAadEffect :
    (gcmS3 true true true).phase = .ready ∧
      ((gcmS3 true true true).preserveAd = true → (64#32).toNat ≤ State.reset.cfg.aadMax) ∧
      ¬ ((gcmS3 true true true).preserveAd = true → (65#32).toNat ≤ State.reset.cfg.aadMax) ∧
      ¬ ((1#32).toNat = 0 ∨ (4096#32).toNat + (1#32).toNat ≤ State.reset.cfg.dmemSize) := by decide +kernel

theorem witness_GcmXformEffect :
    (inGcm (gcmS3 true true true)).dmem.wf ∧ (gcmS3 true true true).phase ∈ [.ready, .aadLoaded, .transforming] ∧
      (gcmS3 true true true).tail = false ∧ (0#32).toNat = 0 := by decide +kernel

theorem witness_GcmFinalEffect :
    (inGcm (gcmS3done true true)).dmem.wf ∧ 12 ≤ (12#8).toNat ∧ (16#8).toNat ≤ 16 ∧
      (4080#32).toNat + (0#32).toNat + (16#8).toNat ≤ State.reset.cfg.dmemSize ∧
      (gcmS3done true true).phase ∈ [.ready, .aadLoaded, .transforming] ∧ (gcmS3done true true).autoInc = true ∧
      (gcmS3done true false).autoInc = false ∧ (∃ b ∈ (gcmS3done true true).N, b ≠ 0xff) ∧
      (∀ b ∈ List.replicate 12 (0xff : Byte), b = 0xff) ∧ (gcmS3done true false).calcTag.phase = .finalized := by
  decide +kernel

theorem witness_GcmVerifyEffect :
    (gcmS3done false true).phase ≠ .uninit ∧ (gcmS3done false true).enc = false ∧ 12 ≤ (12#8).toNat ∧
      (16#8).toNat ≤ 16 ∧ (4084#32).toNat + (0#32).toNat + (12#8).toNat ≤ State.reset.cfg.dmemSize ∧
      ((gcmS3done false true).phase = .finalized ∨ (gcmS3done false true).autoInc = false ∨
        ∃ b ∈ (gcmS3done false true).N, b ≠ 0xff) := by decide +kernel

theorem witness_GcmFinalEffect_errors :
    (gcmS3done true true).phase ≠ .uninit ∧ (11#8).toNat < 12 ∧ 16 < (17#8).toNat ∧
      State.reset.cfg.dmemSize < (4080#32).toNat + (5#32).toNat + (12#8).toNat := by decide +kernel

theorem witness_GcmVerifyEffect_errors :
    (gcmS3done false true).phase ≠ .uninit ∧ (gcmS3done false true).enc = false ∧
      State.reset.cfg.dmemSize < (4085#32).toNat + (0#32).toNat + (12#8).toNat ∧
      (gcmS3done false true).phase ≠ .finalized ∧ ({ gcmS3done false true with N := [0xff] }).autoInc = true ∧
      (∀ b ∈ ({ gcmS3done false true with N := [0xff] }).N, b = 0xff) := by decide +kernel

theorem witness_GcmTransitions_refused :
    ({ gcmS3done true false with tail := true }).tail = true ∧ (gcmS3done true false).phase ≠ .uninit ∧
      (gcmS3done true false).phase ≠ .finalized ∧ (gcmS3done true false).enc = true ∧
      (gcmS3done true false).phase = .transforming := by decide +kernel

theorem witness_GcmTransitions_allowed :
    (∃ t, exec (.gcmXform 0 0 0) (inGcm { GcmUnit.reset with phase := .ready }) = .next t ∧ t.status.err = false) ∧
      (∃ t, exec (.gcmAad 0 0) (inGcm { GcmUnit.reset with phase := .ready }) = .next t ∧ t.status.err = false) ∧
      ∃ t, exec .gcmDestroy State.reset = .next t := ⟨⟨_, rfl, rfl⟩, ⟨_, rfl, rfl⟩, _, rfl⟩

theorem witness_GcmRoundTrip : 12 ≤ 16 ∧ 16 ≤ 16 := by decide

theorem witness_AutoIncrementNonce : ∃ b ∈ ([0xff, 0xff, 0xfe] : Bytes), b ≠ 0xff := by decide

/-- Records for unit DG: BLAKE2b in sequence with a key, Keccak in sequence, and a tree. -/
theorem witness_DgInitEffect :
    holds (fresh [(0, recordBytes ⟨64, 2, 1, 1, 128, 0, 0⟩ [1, 2])]) 0 21 (recordBytes ⟨64, 2, 1, 1, 128, 0, 0⟩ [1, 2]) ∧
      holds (fresh [(0, recordBytes ⟨64, 0, 1, 1, 0, 0, 0⟩ [])]) 4077 19 (zeros 19) ∧
      holds (fresh [(0, recordBytes ⟨64, 0, 4, 2, 0, 64, 0⟩ [])]) 0 19 (recordBytes ⟨64, 0, 4, 2, 0, 64, 0⟩ []) ∧
      holds (fresh [(0, recordBytes ⟨63, 0, 5, 2, 0, 64, 0⟩ [])]) 0 19 (recordBytes ⟨63, 0, 5, 2, 0, 64, 0⟩ []) := by
  unfold holds
  decide +kernel

/-- Every failing check of DG.INIT, on a record or a length that passes the checks before it: the STATUS words are those of
R307 or the causes of R402. -/
theorem witness_DgInitEffect_errors :
    (after (.dgInit .blake2b 4078 19) State.reset (·.result) = some (0x00604604, 0) ∧
      after (.dgInit .blake2b 0 18) (fresh [(0, rec 1 1 0)]) (·.result) = some (0x00104104, 0) ∧
      after (.dgInit .blake2b 0 19) (fresh [(0, (rec 1 1 0).set 0 63)]) (·.result) = some (0x00364304, 0) ∧
      after (.dgInit .blake2b 0 84) (fresh [(0, (rec 1 1 0).set 1 65)]) (·.result) = some (0x00114104, 0) ∧
      after (.dgInit .blake2b 0 20) (fresh [(0, rec 1 1 0)]) (·.result) = some (0x00104104, 0)) ∧
      after (.dgInit .blake2b 0 19) (fresh [(0, rec 5 2 0)]) (·.result) = some (0x00314304, 0) ∧
      after (.dgInit .keccak 0 19) (fresh [(0, (rec 2 2 0).set 4 71)]) (·.result) = some (0x00374304, 0) ∧
      after (.dgInit .keccak 0 19) (fresh [(0, (rec 2 2 0).set 15 1)]) (·.result) = some (0x00384304, 0) ∧
      after (.dgInit .keccak 0 19) (fresh [(0, (rec 2 2 0).set 16 1)]) (·.result) = some (0x00384304, 0) ∧
      after (.dgInit .keccak 0 19) (fresh [(0, rec 1 2 0)]) (·.result) = some (0x00394304, 0) := by decide +kernel

theorem witness_DgUpdateEffect :
    inDg.dg.phase = .ready ∧ (4096#32).toNat + (0#32).toNat ≤ inDg.cfg.dmemSize ∧
      ¬ ((1#32).toNat = 0 ∨ (4096#32).toNat + (1#32).toNat ≤ inDg.cfg.dmemSize) := by decide

theorem witness_DgFinalResetCompute :
    inDg.dmem.wf ∧ inDg.dg.phase = .ready ∧ (4032#32).toNat + 64 ≤ inDg.cfg.dmemSize ∧
      (0#32).toNat + (4096#32).toNat ≤ inDg.cfg.dmemSize := by decide

theorem witness_DgFinalResetCompute_errors :
    inDg.dg.phase = .ready ∧ inDg.cfg.dmemSize < (4033#32).toNat + 64 ∧ ¬ inDmem inDg (4095#32).toNat (2#32).toNat ∧
      inDmem inDg (4095#32).toNat (1#32).toNat := by decide

theorem witness_DgStreamingIsDigest :
    inDg.dg.started Params.standard ∧ (dgOf .blake2b (rec 1 1 0)).started Params.standard ∧
      ([] : Bytes).length < 2 ^ 64 := by
  unfold DgUnit.started
  decide +kernel

theorem witness_SsInitEffect (k i : Nat) (hk : k ∈ [16, 32]) (hi : i ∈ [0, 16]) :
    (8 ≤ (30#8).toNat ∧ (30#8).toNat ≤ 30 ∧ (8#8).toNat % 2 = 0) ∧ (zeros 8).length = 8 ∧
      holds (fresh [(0, containerBytes (zeros k) (zeros 8) (zeros i))]) 0 (BitVec.ofNat 32 (14 + k + i))
        (containerBytes (zeros k) (zeros 8) (zeros i)) ∧
      ¬ (8 ≤ (32#8).toNat ∧ (32#8).toNat ≤ 30 ∧ (32#8).toNat % 2 = 0) := by
  unfold holds
  simp only [List.mem_cons, List.not_mem_nil, or_false] at hk hi
  rcases hk with rfl | rfl <;> rcases hi with rfl | rfl <;> decide +kernel

/-- The first failing check of SS.INIT is each of the six. -/
theorem witness_SsInitEffect_errors :
    (7#8).toNat < 8 ∧ 30 < (31#8).toNat ∧ (9#8).toNat % 2 = 1 ∧ ¬ inDmem State.reset 4051 46 ∧
      containerMisfit (zeros 5) ∧ ¬ containerMisfit (kcOf 24 8 0) ∧
      (parseContainer (kcOf 24 8 0)).key.length ∉ [16, 32] ∧ ¬ containerMisfit (kcOf 16 7 0) ∧
      (parseContainer (kcOf 16 7 0)).nonce.length ≠ 8 ∧ ¬ containerMisfit (kcOf 32 8 15) ∧
      (parseContainer (kcOf 32 8 15)).info.length ∉ [0, 16] := by decide +kernel

theorem witness_SsXformEffect :
    ({ State.reset with ss := ssOf }).dmem.wf ∧ ssOf.phase = .ready ∧ (0#32).toNat = 0 ∧
      ((0#32).toNat + (64#32).toNat ≤ 4096 ∧ (4032#32).toNat + (64#32).toNat ≤ 4096 ∧
        (0#32).toNat + (64#32).toNat ≤ (4032#32).toNat) := by decide +kernel

theorem witness_JentCommands :
    State.reset.dmem.wf ∧ State.reset.jent.available = true ∧ jentOff.jent.available = false ∧
      (4064#32).toNat + (32#32).toNat ≤ State.reset.cfg.dmemSize ∧
      ¬ inDmem State.reset (4065#32).toNat (32#32).toNat := by decide

theorem witness_DrbgInitAndReset :
    (2#2 ≠ 3) ∧ (0#32).toNat + (72#32).toNat ≤ State.reset.cfg.dmemSize ∧ 72 ≤ (72#32).toNat ∧ (71#32).toNat < 72 ∧
      80 ≤ (80#32).toNat ∧ State.reset.cfg.drbgMinSeedCipher ≤ (48#32).toNat ∧ inDrbg.drbg.phase = .ready ∧
      inDrbg.cfg.hasJent = true ∧ inDrbg.jent.available = true ∧ jentOff.jent.available = false ∧
      ¬ inDmem State.reset (4025#32).toNat (72#32).toNat := by decide

theorem witness_DrbgGenStream :
    inDrbg.dmem.wf ∧ inDrbg.drbg.phase = .ready ∧ 0 < inDrbg.cfg.drbgBuf ∧
      (3996#32).toNat + (100#32).toNat ≤ inDrbg.cfg.dmemSize ∧
      inDrbg.drbg.onStream inDrbg.cfg.drbgBuf (Config.drbgSeed 0 (zeros 72)) :=
  ⟨by decide, by decide, by decide, by decide, rfl, rfl, by decide⟩

theorem witness_DrbgGenStream_error :
    inDrbg.drbg.phase = .ready ∧ ¬ inDmem inDrbg (3997#32).toNat (100#32).toNat := by decide

end Sys2Proof.Tests
end

section
/-! Every command as its checks and its effect: the two halves that `exec` hands to `command`. -/

namespace Sys2Proof.Machine

/-- The failing check of a command, as its arm of `exec` gives it to `command` (R406). -/
def commandCheck : Instr → State → Option Cause
  | .sysSetpar target en degree block, s => sysSetparCheck target en degree block s
  | .ghInit addr, s => if !inRange s.cfg addr.toNat 16 then some .srcRange else none
  | .ghUpdate src len, s => ghUpdateCheck src len s
  | .ghSegment src len, s => if !inRange s.cfg src.toNat len.toNat then some .srcRange else none
  | .ghFinal _ _ dst, s | .ghRead dst, s => if !inRange s.cfg dst.toNat 16 then some .dstRange else none
  | .ctrInit kc len, s => ctrInitCheck kc len s
  | .ctrXform src dst len, s => ctrXformCheck src dst len s
  | .gcmInit _ _ _ kc len, s => gcmInitCheck kc len s
  | .gcmAad src len, s => gcmAadCheck src len s
  | .gcmXform src dst len, s => gcmXformCheck src dst len s
  | .gcmFinal base offset tagLen, s => gcmFinalCheck base offset tagLen s
  | .gcmVerify base offset tagLen, s => gcmVerifyCheck base offset tagLen s
  | .dgInit alg addr len, s => dgInitCheck alg addr len s
  | .dgUpdate src len, s => dgUpdateCheck src len s
  | .dgFinal dst, s => dgFinalCheck dst s
  | .dgReset, s => if s.dg.phase ≠ .ready then some .notInitialized else none
  | .dgCompute src dst len, s => dgComputeCheck src dst len s
  | .ssInit rounds kc len, s => ssInitCheck rounds kc len s
  | .ssXform src dst len, s => ssXformCheck src dst len s
  | .jentGet dst len, s => jentGetCheck dst len s
  | .jentNext, s => if !s.jent.available then some .jentUnavailable else none
  | .drbgInit kind seed len, s => drbgInitCheck kind seed len s
  | .drbgGen dst len, s => drbgGenCheck dst len s
  | .drbgReset, s => drbgResetCheck s
  | .sysNop, _ | .sysReset, _ | .ghReset, _ | .ghDestroy, _ | .ctrDestroy, _ | .gcmDestroy, _ | .dgDestroy, _
  | .ssDestroy, _ | .jentAvail, _ | .drbgDestroy, _ => none

/-- The state in which a command ends when every check passes, as its arm of `exec` gives it to `command` (R406). -/
def commandEffect : Instr → State → State
  | .sysNop, s => finish 0 s
  | .sysReset, s => finish 0 (zeroizeAll s)
  | .sysSetpar target en degree block, s =>
    finish 0 (setPar target { en := en, degree := degree.setWidth 8, block := block } s)
  | .ghInit addr, s => finish 0 { s with gh := { H := blockOfBytes (s.dmem.readBytes addr.toNat 16), X := 0 } }
  | .ghUpdate src len, s | .ghSegment src len, s => finish 0 { s with gh := s.gh.absorb (operand s src len) }
  | .ghFinal aadLen msgLen dst, s =>
    finish 0 ({ s with gh := s.gh.final aadLen.toNat msgLen.toNat }.storeBytes dst.toNat
      (blockBytes (s.gh.final aadLen.toNat msgLen.toNat).X))
  | .ghReset, s => finish 0 { s with gh := { s.gh with X := 0 } }
  | .ghRead dst, s => finish 0 (s.storeBytes dst.toNat (blockBytes s.gh.X))
  | .ghDestroy, s => finish 0 { s with gh := GhUnit.reset }
  | .ctrInit kc len, s => finish 0 { s with ctr := s.ctr.init (parseContainer (operand s kc len)) }
  | .ctrXform src dst len, s => ctrXformEffect src dst len s
  | .ctrDestroy, s => finish 0 { s with ctr := s.ctr.zeroize }
  | .gcmInit enc autoInc keepAd kc len, s =>
    finish 0 { s with gcm := s.gcm.init enc autoInc keepAd (parseContainer (operand s kc len)) }
  | .gcmAad src len, s => finish 0 { s with gcm := s.gcm.absorbAad (operand s src len) }
  | .gcmXform src dst len, s => gcmXformEffect src dst len s
  | .gcmFinal base offset tagLen, s => gcmFinalEffect base offset tagLen s
  | .gcmVerify base offset tagLen, s => gcmVerifyEffect base offset tagLen s
  | .gcmDestroy, s => finish 0 { s with gcm := s.gcm.zeroizeWithGuard }
  | .dgInit alg addr len, s => finish 0 { s with dg := DgUnit.init alg (parseDgRecord (operand s addr len)) }
  | .dgUpdate src len, s => finish 0 { s with dg := s.dg.update (operand s src len) }
  | .dgFinal dst, s => dgFinalize s.dg dst s
  | .dgReset, s => finish 0 { s with dg := s.dg.start }
  | .dgCompute src dst len, s => dgFinalize (s.dg.update (operand s src len)) dst s
  | .dgDestroy, s => finish 0 { s with dg := DgUnit.reset }
  | .ssInit rounds kc len, s => finish 0 { s with ss := s.ss.init rounds (parseContainer (operand s kc len)) }
  | .ssXform src dst len, s => ssXformEffect src dst len s
  | .ssDestroy, s => finish 0 { s with ss := s.ss.zeroize }
  | .jentGet dst len, s => jentGetEffect dst len s
  | .jentNext, s =>
    finish (Config.jentWord s.draws) { s with jent := s.jent.drawn s.draws, draws := s.draws + 1 }
  | .jentAvail, s => finish (if s.jent.available then 1 else 0) s
  | .drbgInit kind seed len, s => finish 0 { s with drbg := DrbgUnit.init s.cfg kind (operand s seed len) }
  | .drbgGen dst len, s => drbgGenEffect dst len s
  | .drbgReset, s => drbgResetEffect s
  | .drbgDestroy, s => finish 0 { s with drbg := DrbgUnit.reset s.cfg }

/-- Every arm of `exec` is `command` on the two. -/
theorem exec_eq_command (i : Instr) (s : State) :
    exec i s = command i.unit (commandCheck i s) (commandEffect i s) s := by
  cases i <;> rfl

/-- A command raises one of its own causes, or passes its checks and has its effect (R405, R406). -/
theorem exec_cases {i : Instr} {s t : State} (h : exec i s = .next t) :
    (∃ c ∈ i.causes, t = raiseError i.unit c s) ∨ (commandCheck i s = none ∧ t = commandEffect i s) := by
  rcases exec_next h with hraise | herr
  · exact .inl hraise
  · rcases command_next (exec_eq_command i s ▸ h) with ⟨c, -, rfl⟩ | heffect
    · cases herr
    · exact .inr heffect

/-! ### What a command leaves unchanged -/

/-- The effect of a command touches no unit but its own, those of unit SYS excepted, and leaves the host's side of the
model and FAULT alone (R11, R36, R38, R42). -/
theorem commandEffect_frame (i : Instr) (s : State) :
    (i.unit ≠ .sys → sameOtherUnits i.unit s (commandEffect i s)) ∧ sameHostSide s (commandEffect i s) ∧
      (commandEffect i s).status.fault = s.status.fault := by
  cases i <;>
    simp [Instr.unit, sameOtherUnits, sameHostSide, commandEffect, ctrXformEffect, gcmXformEffect, gcmFinalEffect,
      gcmVerifyEffect, dgFinalize, ssXformEffect, jentGetEffect, drbgGenEffect, drbgResetEffect]

/-- No command touches a unit but its own, those of unit SYS excepted, nor the build, the descriptor registers, the
host's lists or FAULT (R11, R36, R38, R42). -/
theorem exec_frame {i : Instr} {s t : State} (h : exec i s = .next t) :
    (i.unit ≠ .sys → sameOtherUnits i.unit s t) ∧ sameHostSide s t ∧ t.status.fault = s.status.fault := by
  rcases exec_cases h with ⟨c, -, rfl⟩ | ⟨-, rfl⟩
  · exact ⟨fun _ => raiseError_other _ _ _, raiseError_hostSide _ _ _, rfl⟩
  · exact commandEffect_frame i s

/-- Settles O19: a command raises or has its effect, and each of the two has its frame. -/
theorem onlyOwnUnit : Obligations.OnlyOwnUnit := fun _ _ _ h => exec_frame h

end Sys2Proof.Machine
end

section
/-! The steps of the machine: the sequencer's command, the host's accesses, and the build parameters, which no step
changes. -/

namespace Sys2Proof.Machine

/-- The sequencer with a command in the descriptor registers: the command to its end, then the report (R24). -/
theorem sequencerStep_of_exec {s t : State} {i : Instr} (hi : s.decoded = .command i) (h : exec i s = .next t) :
    sequencerStep s = .next (report t) := by
  simp [sequencerStep, runCommand, hi, h]

/-- Settles O5: the step is the sequencer's, and the sequencer's is the command and its report. -/
theorem stepRunsCommand : Obligations.StepRunsCommand := fun _ _ _ hdue hi h =>
  (step_sequencer hdue).trans (sequencerStep_of_exec hi h)

/-! ### The build parameters (R11) -/

theorem regWrite_cfg (offset : Nat) (v : Word) (s : State) : (regWrite offset v s).cfg = s.cfg := by
  rcases regWrite_cases offset v s with h | h | h | h | h <;> simp [h]

theorem regWriteBusy_cfg (offset : Nat) (s : State) : (regWriteBusy offset s).cfg = s.cfg := by
  unfold regWriteBusy
  split_ifs <;> rfl

theorem hostMove_cfg {m : HostMove} {s t : State} (h : hostMove m s = .next t) : t.cfg = s.cfg := by
  cases m with
  | readReg width offset => rw [(regAccess_next h).1, reply_cfg]
  | writeReg width offset v => rw [(regAccess_next h).1, regWrite_cfg]
  | readDmem addr n => rw [(dmemAccess_next h).1, reply_cfg]
  | writeDmem addr bytes => rw [(dmemAccess_next h).1, State.storeBytes_cfg]
  | hardReset => cases h; rfl

theorem earlyMove_cfg {m : HostMove} {s t : State} (h : earlyMove m s = .next t) : t.cfg = s.cfg := by
  cases m with
  | readReg width offset => rw [(regAccess_next h).1, reply_cfg]
  | writeReg width offset v => rw [(regAccess_next h).1, regWriteBusy_cfg]
  | readDmem addr n => rw [(dmemAccess_next h).1, reply_cfg, setFault_cfg]
  | writeDmem addr bytes => rw [(dmemAccess_next h).1, setFault_cfg]
  | hardReset => cases h; rfl

theorem sequencerStep_cfg {s t : State} (h : sequencerStep s = .next t) : t.cfg = s.cfg := by
  obtain ⟨r, hr, rfl⟩ := sequencerStep_next h
  rcases runCommand_next hr with ⟨i, -, hi⟩ | ⟨e, -, rfl⟩
  · obtain ⟨-, ⟨hcfg, -⟩, -⟩ := exec_frame hi
    exact hcfg
  · exact raiseError_cfg .sys (decodeCause e) s

/-- No step changes the build parameters (R11). -/
theorem step_cfg {s t : State} (h : step s = .next t) : t.cfg = s.cfg := by
  rcases step_next h with ⟨-, rest, -, rfl⟩ | ⟨-, -, m, rest, -, hm⟩ | ⟨-, -, m, rest, -, hm⟩ | ⟨-, hs⟩ | ⟨-, rfl⟩
  · rfl
  · exact (earlyMove_cfg hm).trans rfl
  · exact (hostMove_cfg hm).trans rfl
  · exact sequencerStep_cfg hs
  · rfl

/-- A step of the build `p` is a step of the machine (R11). -/
theorem buildStep_iff (p : Params) (s t : { s : State // s.cfg = p }) :
    buildStep p s = .next t ↔ step s.1 = .next t.1 := by
  have hself : ∀ u : State, u.cfg = p → { u with cfg := p } = u := by
    rintro u rfl
    rfl
  unfold buildStep
  cases hstep : step s.1 with
  | next u => simp [Subtype.ext_iff, hself u ((step_cfg hstep).trans s.2)]
  | fault r => simp
  | refused r => simp

/-- Bit `k` of CAP: LANES in bits 7:0, NPROC in bits 15:8, HAS_JENT in bit 16, HAS_DRBG in bit 17 (R34). -/
theorem capWord_getLsbD (p : Params) (k : Nat) :
    (capWord p).getLsbD k =
      if k < 8 then p.lanes.testBit k
      else if k < 16 then p.nproc.testBit (k - 8)
      else if k = 16 then p.hasJent
      else if k = 17 then p.hasDrbg
      else false := by
  change (0#14 ++ bit p.hasDrbg ++ bit p.hasJent ++ BitVec.ofNat 8 p.nproc ++ BitVec.ofNat 8 p.lanes).getLsbD k = _
  simp only [BitVec.getLsbD_append, BitVec.getLsbD_ofNat, bit]
  split_ifs <;> simp_all <;> omega

/-- A field of CAP that holds the low eight bits of a number `n`, from its bits. -/
theorem capWord_field {p : Params} {k n : Nat} (hn : n < 256)
    (h : ∀ i < 8, (capWord p).getLsbD (k + i) = n.testBit i) : ((capWord p).extractLsb' k 8).toNat = n := by
  have hfield : (capWord p).extractLsb' k 8 = BitVec.ofNat 8 n := by
    apply BitVec.eq_of_getLsbD_eq
    intro i hi
    rw [BitVec.getLsbD_extractLsb', h i hi, BitVec.getLsbD_ofNat]
  rw [hfield, BitVec.toNat_ofNat, Nat.mod_eq_of_lt hn]

/-- The fields of CAP in a legal build (R34). -/
theorem capWord_fields {p : Params} (hp : p.legal) :
    ((capWord p).extractLsb' 0 8).toNat = p.lanes ∧ ((capWord p).extractLsb' 8 8).toNat = p.nproc ∧
      (capWord p).getLsbD 16 = p.hasJent ∧ (capWord p).getLsbD 17 = p.hasDrbg ∧
      (capWord p).extractLsb' 18 14 = 0 := by
  obtain ⟨-, -, hlanes, -, hnproc, -, -⟩ := hp
  refine ⟨capWord_field (by omega) fun i hi => ?_, capWord_field (by omega) fun i hi => ?_, ?_, ?_, ?_⟩
  · simp [capWord_getLsbD, hi]
  · have : ¬ 8 + i < 8 := by omega
    have : 8 + i < 16 := by omega
    simp [capWord_getLsbD, *]
  · rw [capWord_getLsbD]; rfl
  · rw [capWord_getLsbD]; rfl
  · apply BitVec.eq_of_getLsbD_eq
    intro i hi
    have h16 : ¬ 18 + i < 16 := by omega
    have h8 : ¬ 18 + i < 8 := by omega
    rw [BitVec.getLsbD_extractLsb', capWord_getLsbD, if_neg h8, if_neg h16, if_neg (by omega), if_neg (by omega)]
    simp

/-- Settles O11: the fields of CAP bit by bit, and that no step writes the parameters. -/
theorem capFields : Obligations.CapFields :=
  ⟨fun _ => capWord_fields, fun _ _ h => ⟨step_cfg h, by rw [step_cfg h]⟩, buildStep_iff⟩

/-! ### The accesses of the host (R33, R80, R90, R450) -/

theorem regAccess_of_form {offset : Nat} (hform : offset % 4 = 0) (hspace : offset < 256) (t : State) :
    regAccess 4 offset t = .next t := by
  have : ¬ regSpace ≤ offset := by simpa [regSpace] using hspace
  simp [regAccess, regForm, hform, this]

theorem regAccess_refused {width offset : Nat} (h : width ≠ 4 ∨ offset % 4 ≠ 0) (t : State) :
    regAccess width offset t = .refused .registerAccessForm := by
  rcases h with h | h <;> simp [regAccess, regForm, h]

theorem regAccess_outside {offset : Nat} (hform : offset % 4 = 0) (hspace : 256 ≤ offset) (t : State) :
    regAccess 4 offset t = .fault .noSuchRegister := by
  simp [regAccess, regForm, hform, regSpace, hspace]

theorem dmemAccess_of_inDmem {s : State} {a n : Nat} (h : inDmem s a n) (t : State) :
    dmemAccess s a n t = .next t := by
  rw [dmemAccess, if_pos ((inRange_iff _ _ _).mpr h)]

theorem dmemAccess_outside {s : State} {a n : Nat} (h : ¬ inDmem s a n) (t : State) :
    dmemAccess s a n t = .fault .noSuchDmemAddress := by
  rw [dmemAccess, if_neg fun hr => h ((inRange_iff _ _ _).mp hr)]

/-- A move of the host that may be made now is the next step, outside the fault state (R450). -/
theorem step_of_move {s : State} {m : HostMove} {e : Bool} {rest : List HostEvent}
    (he : s.status.busy = true → e = true) (hf : s.status.fault = false) (hi : s.inbox = ⟨m, e⟩ :: rest) :
    step s = if s.status.busy then earlyMove m { s with inbox := rest } else hostMove m { s with inbox := rest } := by
  cases hb : s.status.busy with
  | false => simpa using step_host hb hf hi
  | true =>
    obtain rfl := he hb
    simpa using step_early hb hf hi

/-- Reading a register, at any time (R33, R90). -/
theorem step_readReg {s : State} {width offset : Nat} {e : Bool} {rest : List HostEvent}
    (he : s.status.busy = true → e = true) (hf : s.status.fault = false)
    (hi : s.inbox = ⟨.readReg width offset, e⟩ :: rest) :
    step s = regAccess width offset
      { s with inbox := rest, outbox := .reg (regRead s offset) :: s.outbox } := by
  rw [step_of_move he hf hi]
  split_ifs <;> rfl

/-- A register access of the host has the guard of R90 and R33, at any time. -/
theorem step_regAccess {s : State} {width offset : Nat} {v : Word} {e : Bool} {rest : List HostEvent}
    (he : s.status.busy = true → e = true) (hf : s.status.fault = false)
    (hi : s.inbox = ⟨.readReg width offset, e⟩ :: rest ∨ s.inbox = ⟨.writeReg width offset v, e⟩ :: rest) :
    ∃ t, step s = regAccess width offset t := by
  rcases hi with hi | hi
  · exact ⟨_, step_readReg he hf hi⟩
  · rw [step_of_move he hf hi]
    split_ifs <;> exact ⟨_, rfl⟩

/-- In the fault state every move but a hardware reset, and no move, stops the machine (R450, U1). -/
theorem step_protocolBroken {s : State} (hf : s.status.fault = true)
    (hi : ∀ e rest, s.inbox ≠ ⟨.hardReset, e⟩ :: rest) : step s = .fault .protocolBroken := by
  cases hin : s.inbox with
  | nil => simp [step, State.nextEvent, hin, hf]
  | cons ev rest =>
    obtain ⟨m, e⟩ := ev
    rw [step_stuck hf hin]
    cases m with
    | hardReset => exact absurd hin (hi e rest)
    | readReg | writeReg | readDmem | writeDmem => rfl

/-- A DMEM read of the host: the guard of R80, and what it does while BUSY is 0 and while BUSY is 1. -/
theorem step_readDmem {s : State} {addr n : Nat} {e : Bool} {rest : List HostEvent} (hf : s.status.fault = false)
    (hi : s.inbox = ⟨.readDmem addr n, e⟩ :: rest) :
    (inDmem s addr n → s.status.busy = false →
      step s = .next { s with inbox := rest, outbox := .dmem (s.dmem.readBytes addr n) :: s.outbox }) ∧
    (inDmem s addr n → s.status.busy = true → e = true → ∃ v : Bytes, v.length = n ∧
      step s = .next { s with
        inbox := rest, outbox := .dmem v :: s.outbox, draws := s.draws + 1
        status := { s.status with fault := true } }) ∧
    (¬ inDmem s addr n → (s.status.busy = true → e = true) → step s = .fault .noSuchDmemAddress) := by
  refine ⟨fun hr hb => ?_, fun hr hb he => ?_, fun hr he => ?_⟩
  · rw [step_host hb hf hi]
    exact dmemAccess_of_inDmem hr _
  · subst he
    refine ⟨drawBytes (Config.busyReadByte s.draws) n, drawBytes_length _ _, ?_⟩
    rw [step_early hb hf hi]
    exact dmemAccess_of_inDmem hr _
  · rw [step_of_move he hf hi]
    split_ifs <;> exact dmemAccess_outside hr _

/-- A DMEM write of the host: the guard of R80, and what it does while BUSY is 0 and while BUSY is 1. -/
theorem step_writeDmem {s : State} {addr : Nat} {v : Bytes} {e : Bool} {rest : List HostEvent}
    (hf : s.status.fault = false) (hi : s.inbox = ⟨.writeDmem addr v, e⟩ :: rest) :
    (inDmem s addr v.length → s.status.busy = false → s.dmem.wf →
      ∃ t, step s = .next t ∧ t = { s with inbox := rest, dmem := t.dmem } ∧ wrote s t addr v) ∧
    (inDmem s addr v.length → s.status.busy = true → e = true → ∃ m : Memory,
      step s = .next { s with
        inbox := rest, dmem := m, draws := s.draws + 1, status := { s.status with fault := true } }) ∧
    (¬ inDmem s addr v.length → (s.status.busy = true → e = true) → step s = .fault .noSuchDmemAddress) := by
  refine ⟨fun hr hb hwf => ?_, fun hr hb he => ?_, fun hr he => ?_⟩
  · refine ⟨{ s with inbox := rest }.storeBytes addr v, ?_, rfl, storeBytes_wrote hwf addr v⟩
    rw [step_host hb hf hi]
    exact dmemAccess_of_inDmem hr _
  · subst he
    refine ⟨spoiltDmem s.cfg s.draws, ?_⟩
    rw [step_early hb hf hi]
    exact dmemAccess_of_inDmem hr _
  · rw [step_of_move he hf hi]
    split_ifs <;> exact dmemAccess_outside hr _

/-- Settles O10, one lemma per kind of access. -/
theorem hostAccess : Obligations.HostAccess := by
  refine ⟨fun s offset e rest hform hspace he hf hi => ?_, fun s width offset v e rest he hf hi => ?_,
    fun _ _ _ _ _ hf hi => step_readDmem hf hi, fun _ _ _ _ _ hf hi => step_writeDmem hf hi,
    fun _ hf hi => step_protocolBroken hf hi⟩
  · rw [step_readReg he hf hi, regAccess_of_form hform hspace]
  · obtain ⟨t, ht⟩ := step_regAccess he hf hi
    refine ⟨fun hform => ht.trans (regAccess_refused hform t), ?_⟩
    rintro rfl hform hspace
    exact ht.trans (regAccess_outside hform hspace t)

end Sys2Proof.Machine
end

section
/-! Decoding an encoded command, and the descriptor that `withFetchWord` leaves in DESC0 to DESC3. -/

namespace Sys2Proof

/-- The opcode byte of every command (R110, R119). -/
theorem opcodeByte (i : Instr) : Laws.OpcodeByte.Statement i := by
  cases i <;> exact Laws.opcodeByte_of rfl rfl

/-- Field UNIT is the high nibble of the opcode byte (R110). -/
theorem Desc.unit_toNat (d : Desc) : d.unit.toNat = d.opcode.toNat / 16 := by
  simp only [Desc.unit, Desc.opcode, BitVec.extractLsb'_toNat, Nat.shiftRight_eq_div_pow]
  omega

/-- The descriptor of a command carries the number of its unit (R112, R119). -/
theorem encode_unit_toNat (i : Instr) : (encode i).unit.toNat = i.unit.number := by
  obtain ⟨-, hopcode⟩ := opcodeByte i
  have hop : i.operation < 16 := by cases i <;> simp [Instr.operation]
  rw [Desc.unit_toNat, hopcode]
  omega

/-- Step 2 of R116 passes exactly the commands that exist in the build (R118). -/
theorem unitAbsent_encode (p : Params) (i : Instr) :
    unitAbsent p.hasJent p.hasDrbg (encode i).unit = !i.wellFormed p := by
  rw [unitAbsent, encode_unit_toNat, Instr.wellFormed]
  cases i.unit <;> simp [UnitId.number, UnitId.present]

/-- The fields of a descriptor whose W0 is an opcode word (R110). -/
@[simp] theorem Desc.opcode_opWord (o f m : Byte) (a b n : Word) : Desc.opcode ⟨opWord o f m, a, b, n⟩ = o :=
  opWord_opcode o f m

@[simp] theorem Desc.flags_opWord (o f m : Byte) (a b n : Word) : Desc.flags ⟨opWord o f m, a, b, n⟩ = f :=
  opWord_flags o f m

@[simp] theorem Desc.imm8_opWord (o f m : Byte) (a b n : Word) : Desc.imm8 ⟨opWord o f m, a, b, n⟩ = m :=
  opWord_imm8 o f m

/-- What steps 3 and 4 of R116 ask of the descriptor `d` to be the command `i`. -/
def rowDecodes (d : Desc) (i : Instr) : Prop :=
  ∃ r, rowOf d.opcode = some r ∧ reservedSet r d = false ∧ r.build d = i

/-- The two steps for a row that the opcode byte selects: its undefined fields are 0, and it builds the command. -/
theorem rowDecodes_opWord {o f m : Byte} {a b n : Word} {i : Instr} {r : OpRow} (hrow : rowOf o = some r)
    (hflags : f &&& ~~~ r.flags = 0) (himm : r.imm = false → m = 0) (ha : r.format.usesA = false → a = 0)
    (hb : r.format.usesB = false → b = 0) (hn : r.format.usesN = false → n = 0)
    (hbuild : r.build ⟨opWord o f m, a, b, n⟩ = i) : rowDecodes ⟨opWord o f m, a, b, n⟩ i := by
  refine ⟨r, by rw [Desc.opcode_opWord, hrow], ?_, hbuild⟩
  simp only [reservedSet, Desc.flags_opWord, Desc.imm8_opWord, hflags, Bool.or_eq_false_iff, Bool.and_eq_false_imp,
    Bool.not_eq_true', bne_self_eq_false, true_and, bne_eq_false_iff_eq]
  exact ⟨⟨⟨himm, ha⟩, hb⟩, hn⟩

/-- Steps 3 and 4 of R116 on the encoding of a command. -/
theorem rowDecodes_encode (i : Instr) : rowDecodes (encode i) i := by
  cases i with
  | sysSetpar target en degree block =>
    refine rowDecodes_opWord rfl ?_ nofun nofun (fun _ => rfl) nofun ?_ <;> cases en <;> simp [flagBit]
  | gcmInit enc autoInc keepAd kc len =>
    refine rowDecodes_opWord rfl ?_ (fun _ => rfl) nofun (fun _ => rfl) nofun ?_ <;>
      cases enc <;> cases autoInc <;> cases keepAd <;> simp [flagBit]
  | dgInit alg addr len =>
    refine rowDecodes_opWord rfl ?_ (fun _ => rfl) nofun (fun _ => rfl) nofun ?_ <;> cases alg <;> simp [flagBit]
  | drbgInit kind seed len =>
    obtain ⟨hflags, hback⟩ : kind.setWidth 8 &&& ~~~ 3#8 = 0 ∧ (kind.setWidth 8).extractLsb' 0 2 = kind := by
      revert kind
      decide
    refine rowDecodes_opWord rfl hflags (fun _ => rfl) nofun (fun _ => rfl) nofun ?_
    simp [hback]
  | _ =>
    refine rowDecodes_opWord rfl rfl ?_ ?_ ?_ ?_ ?_ <;> simp [Format.usesA, Format.usesB, Format.usesN]

/-- Decoding an encoded command gives it back (R110 to R118). -/
theorem decode_encode {p : Params} {i : Instr} (h : i.wellFormed p = true) :
    decode p.hasJent p.hasDrbg (encode i) = .command i := by
  obtain ⟨hreserved, -⟩ := opcodeByte i
  obtain ⟨r, hrow, hset, hbuild⟩ := rowDecodes_encode i
  simp [decode, hreserved, unitAbsent_encode, h, hrow, hset, hbuild]

/-- The descriptor of a descriptor's 128 bits is the descriptor (R110). -/
theorem descOfNat_bits (d : Desc) : descOfNat 128 d.bits = d := by
  obtain ⟨w0, w1, w2, w3⟩ := d
  have h0 := w0.isLt
  have h1 := w1.isLt
  have h2 := w2.isLt
  have h3 := w3.isLt
  simp only [descOfNat, Desc.bits, Desc.mk.injEq]
  refine ⟨?_, ?_, ?_, ?_⟩ <;> apply BitVec.eq_of_toNat_eq <;> rw [BitVec.toNat_ofNat] <;> omega

end Sys2Proof

namespace Sys2Proof.Machine

/-- After `withFetchWord` the sequencer takes the next step: the moves that would break in are dropped (log 5). -/
theorem withFetchWord_commandDue (s : State) (nbits w : Nat) : commandDue (s.withFetchWord nbits w) := by
  refine ⟨rfl, ?_, rfl⟩
  have hinbox : (s.withFetchWord nbits w).inbox = s.inbox.dropWhile fun e => e.early := rfl
  have hstatus : (s.withFetchWord nbits w).status =
      { busy := true, err := false, vok := false, fault := false, ekind := 0, eunit := 0, ecause := 0 } := rfl
  unfold State.nextEvent
  cases hdrop : s.inbox.dropWhile fun e => e.early with
  | nil => simp [hinbox, hdrop]
  | cons e rest =>
    have hearly : e.early = false := by
      simpa [hdrop] using List.head_dropWhile_not (l := s.inbox) (fun e => e.early) (by simp [hdrop])
    simp [hinbox, hdrop, hearly, hstatus]

/-- `withFetchWord` leaves the descriptor of the bits in DESC0 to DESC3. -/
theorem withFetchWord_desc (s : State) (nbits w : Nat) : (s.withFetchWord nbits w).desc = descOfNat nbits w := rfl

/-- Settles O7: the bits of an encoding give the descriptor back, and decoding it gives the command back. -/
theorem fetchWordIsRun : Obligations.FetchWordIsRun := by
  intro i s hwf
  have hdecoded : (s.withFetchWord 128 (encode i).bits).decoded = .command i := by
    rw [State.decoded, withFetchWord_desc, descOfNat_bits]
    exact decode_encode hwf
  exact ⟨withFetchWord_commandDue _ _ _, hdecoded, rfl, rfl, rfl, rfl, rfl, rfl, rfl, rfl, rfl, rfl⟩

end Sys2Proof.Machine
end

section
/-! The invariant of each unit, operation by operation. -/

namespace Sys2Proof.Machine

@[simp] theorem operand_length (s : State) (a n : Word) : (operand s a n).length = n.toNat :=
  Memory.readBytes_length _ _ _

/-! ### Outputs that fit their destination -/

/-- Counter mode delivers no byte more than it is given (R213). -/
theorem ctrLoop_length_le (key : Bytes) (blocks : List Bytes) (c : Block) :
    (ctrLoop key blocks c).1.length ≤ blocks.flatten.length := by
  induction blocks generalizing c with
  | nil => exact Nat.le_refl _
  | cons blk rest ih =>
    have hrest := ih (inc128 c)
    simp only [ctrLoop, List.length_append, xorBytes_length, List.flatten_cons]
    omega

theorem ctrStream_length_le (key : Bytes) (c : Block) (input : Bytes) :
    (ctrStream key c input).1.length ≤ input.length := by
  simpa [ctrStream, chunks_flatten] using ctrLoop_length_le key (chunks 16 input) c

/-- Salsa20 delivers no byte more than it is given (R334). -/
theorem ssLoop_length_le (rounds : Nat) (blocks : List Bytes) (w : SalsaWords) :
    (ssLoop rounds blocks w).1.length ≤ blocks.flatten.length := by
  induction blocks generalizing w with
  | nil => exact Nat.le_refl _
  | cons blk rest ih =>
    have hrest := ih (ssIncrement w)
    simp only [ssLoop, List.length_append, xorBytes_length, List.flatten_cons]
    omega

theorem ssStream_length_le (rounds : Byte) (w : SalsaWords) (input : Bytes) :
    (ssStream rounds w input).1.length ≤ input.length := by
  simpa [ssStream, chunks_flatten] using ssLoop_length_le rounds.toNat (chunks 64 input) w

theorem leafFinishB2_length (prm : DgPrm) (key : Bytes) (l : Leaf) (r : Bytes) (lastNode : Bool) :
    (leafFinishB2 prm key l r lastNode).length = 64 := by
  simp only [leafFinishB2, apply_ite List.length, chainBytes_length, ite_self]

theorem DgUnit.leafFinish_length (u : DgUnit) (i : Nat) (l : Leaf) : (u.leafFinish i l).length = 64 := by
  unfold DgUnit.leafFinish
  split
  · exact leafFinishB2_length _ _ _ _ _
  · exact keccakDigest_length _ _

theorem dgRoot_length (alg : HashAlg) (prm : DgPrm) (c : Bytes) : (dgRoot alg prm c).length = 64 := by
  cases alg <;> simp [dgRoot]

/-- DG.FINAL writes at most 64 bytes (R292). -/
theorem DgUnit.digest_length_le (u : DgUnit) : u.digest.length ≤ 64 := by
  unfold DgUnit.digest
  split_ifs
  · cases hl : u.leaves with
    | nil => simp
    | cons l ls => simp [List.mapIdx_cons, u.leafFinish_length]
  · exact Nat.le_of_eq (dgRoot_length _ _ _)

/-! ### Units CTR and SS -/

theorem CtrUnit.zeroize_ok (u : CtrUnit) : u.zeroize.ok := .inl ⟨rfl, rfl⟩

theorem CtrUnit.init_ok (u : CtrUnit) {k : KeyContainer} (hkey : aesKeyLegal k.key = true) : (u.init k).ok :=
  .inr ⟨rfl, hkey⟩

/-- A new counter keeps the invariant of an initialized unit (R213). -/
theorem CtrUnit.setCounter_ok {u : CtrUnit} (h : u.ok) (hp : u.phase = .ready) (c : Block) :
    CtrUnit.ok { u with c := c } := by
  rcases h with ⟨hun, -⟩ | ⟨-, hkey⟩
  · simp [hp] at hun
  · exact .inr ⟨hp, hkey⟩

/-- A profile is not part of the invariant of its unit (R384). -/
theorem CtrUnit.setPar_ok {u : CtrUnit} (h : u.ok) (par : Par) : CtrUnit.ok { u with par := par } :=
  h.imp (fun ⟨hp, hz⟩ => ⟨hp, congrArg (fun v : CtrUnit => { v with par := par }) hz⟩) id

theorem SsUnit.zeroize_ok (u : SsUnit) : u.zeroize.ok := .inl ⟨rfl, rfl⟩

theorem SsUnit.init_ok (u : SsUnit) {rounds : Byte} (hr : roundsLegal rounds = true) (k : KeyContainer) :
    (u.init rounds k).ok :=
  .inr ⟨rfl, hr⟩

theorem SsUnit.setWords_ok {u : SsUnit} (h : u.ok) (hp : u.phase = .ready) (w : SalsaWords) :
    SsUnit.ok { u with s := w } := by
  rcases h with ⟨hun, -⟩ | ⟨-, hr⟩
  · simp [hp] at hun
  · exact .inr ⟨hp, hr⟩

theorem SsUnit.setPar_ok {u : SsUnit} (h : u.ok) (par : Par) : SsUnit.ok { u with par := par } :=
  h.imp (fun ⟨hp, hz⟩ => ⟨hp, congrArg (fun v : SsUnit => { v with par := par }) hz⟩) id

/-! ### Unit GCM -/

theorem GcmUnit.zeroize_ok (p : Params) (u : GcmUnit) : u.zeroize.ok p :=
  ⟨fun _ => rfl, fun h => absurd rfl h, Nat.zero_le _, fun _ => rfl⟩

theorem GcmUnit.zeroizeWithGuard_ok (p : Params) (u : GcmUnit) : u.zeroizeWithGuard.ok p :=
  ⟨fun _ => rfl, fun h => absurd rfl h, Nat.zero_le _, fun _ => rfl⟩

theorem GcmUnit.setPar_ok {p : Params} {u : GcmUnit} (h : u.ok p) (par : Par) : GcmUnit.ok p { u with par := par } := by
  obtain ⟨hun, hin, hstore, hkept⟩ := h
  exact ⟨fun hp => congrArg (fun v : GcmUnit => { v with par := par }) (hun hp), hin, hstore, hkept⟩

/-- `GcmSetup` starts a session (R235). -/
theorem GcmUnit.setup_inSession {u : GcmUnit} {key nonce : Bytes} (hkey : aesKeyLegal key = true)
    (hmin : 8 ≤ nonce.length) (hmax : nonce.length ≤ 16) (haad : u.aadKept = true → u.preserveAd = true) :
    (u.setup key nonce).inSession :=
  ⟨hkey, hmin, hmax, rfl, rfl, rfl, rfl, rfl, nofun, nofun, nofun, haad⟩

theorem GcmUnit.init_ok (p : Params) (u : GcmUnit) (enc autoInc keepAd : Bool) {k : KeyContainer}
    (hkey : aesKeyLegal k.key = true) (hmin : 8 ≤ k.nonce.length) (hmax : k.nonce.length ≤ 16) :
    (u.init enc autoInc keepAd k).ok p :=
  ⟨nofun, fun _ => GcmUnit.setup_inSession hkey hmin hmax nofun, Nat.zero_le _, fun _ => rfl⟩

theorem GcmUnit.absorbAad_ok {p : Params} {u : GcmUnit} (h : u.ok p) (hp : u.phase = .ready) {data : Bytes}
    (hfits : u.preserveAd = true → data.length ≤ p.aadMax) : (u.absorbAad data).ok p := by
  obtain ⟨-, hin, hstore, hkept⟩ := h
  obtain ⟨hkey, hmin, hmax, hH, hJ0, hvalid, hgk, hgn, htail, -, -, haad⟩ := hin (by simp [hp])
  refine ⟨nofun, fun _ => ⟨hkey, hmin, hmax, hH, hJ0, hvalid, hgk, hgn, ?_, nofun, nofun, ?_⟩, ?_, ?_⟩
  · intro ht
    rcases htail ht with h | h <;> simp [hp] at h
  · intro hk
    rcases Bool.or_eq_true_iff.mp hk with h | h
    · exact h
    · exact haad h
  · cases hpre : u.preserveAd <;> simp_all [GcmUnit.absorbAad]
  · cases hpre : u.preserveAd <;> simp_all [GcmUnit.absorbAad]

theorem GcmUnit.xform_ok {p : Params} {u : GcmUnit} (h : u.ok p) (hp : u.phase ≠ .uninit) (input : Bytes) :
    (u.xform input).1.ok p := by
  obtain ⟨-, hin, hstore, hkept⟩ := h
  obtain ⟨hkey, hmin, hmax, hH, hJ0, hvalid, hgk, hgn, -, -, -, haad⟩ := hin hp
  exact ⟨nofun, fun _ => ⟨hkey, hmin, hmax, hH, hJ0, hvalid, hgk, hgn, fun _ => .inl rfl, nofun, nofun, haad⟩,
    hstore, hkept⟩

@[simp] theorem GcmUnit.calcTag_key (u : GcmUnit) : u.calcTag.key = u.key := rfl
@[simp] theorem GcmUnit.calcTag_N (u : GcmUnit) : u.calcTag.N = u.N := rfl
@[simp] theorem GcmUnit.calcTag_autoInc (u : GcmUnit) : u.calcTag.autoInc = u.autoInc := rfl
@[simp] theorem GcmUnit.calcTag_preserveAd (u : GcmUnit) : u.calcTag.preserveAd = u.preserveAd := rfl
@[simp] theorem GcmUnit.calcTag_aadStore (u : GcmUnit) : u.calcTag.aadStore = u.aadStore := rfl
@[simp] theorem GcmUnit.calcTag_aadKept (u : GcmUnit) : u.calcTag.aadKept = u.aadKept := rfl

/-- `CalcTag` finalizes a session without auto-increment (R246). -/
theorem GcmUnit.calcTag_ok {p : Params} {u : GcmUnit} (h : u.ok p) (hp : u.phase ≠ .uninit)
    (hauto : u.autoInc = false) : u.calcTag.ok p := by
  obtain ⟨-, hin, hstore, hkept⟩ := h
  obtain ⟨hkey, hmin, hmax, hH, hJ0, hvalid, hgk, hgn, -, -, -, haad⟩ := hin hp
  exact ⟨nofun, fun _ => ⟨hkey, hmin, hmax, hH, hJ0, hvalid, hgk, hgn, fun _ => .inr rfl, fun _ => hauto, fun _ => rfl,
    haad⟩, hstore, hkept⟩

@[simp] theorem incNonce_length (nonce : Bytes) : (incNonce nonce).length = nonce.length := beBytes_length _ _

/-- `AutoReinit` starts the next session from the key and the nonce of this one (R247). -/
theorem GcmUnit.autoReinit_ok {p : Params} {u : GcmUnit} (hkey : aesKeyLegal u.key = true) (hmin : 8 ≤ u.N.length)
    (hmax : u.N.length ≤ 16) (haad : u.aadKept = true → u.preserveAd = true) (hstore : u.aadStore.length ≤ p.aadMax)
    (hkept : u.aadKept = false → u.aadStore = []) : u.autoReinit.ok p := by
  rw [← incNonce_length] at hmin hmax
  unfold GcmUnit.autoReinit
  split_ifs
  · exact ⟨nofun, fun _ => ⟨hkey, hmin, hmax, rfl, rfl, rfl, rfl, rfl, nofun, nofun, nofun, haad⟩, hstore, hkept⟩
  · exact ⟨nofun, fun _ => GcmUnit.setup_inSession hkey hmin hmax haad, hstore, hkept⟩

/-- Taking a tag keeps the invariant: the session is finalized, or auto-increment starts the next one (R248, R250). -/
theorem GcmUnit.takeTag_ok {p : Params} {u : GcmUnit} (h : u.ok p) (hp : u.phase ≠ .uninit) : u.takeTag.1.ok p := by
  unfold GcmUnit.takeTag
  split_ifs
  · exact h
  · cases hauto : u.autoInc with
    | false => simpa [hauto] using GcmUnit.calcTag_ok h hp hauto
    | true =>
      obtain ⟨-, hin, hstore, hkept⟩ := h
      obtain ⟨hkey, hmin, hmax, -, -, -, -, -, -, -, -, haad⟩ := hin hp
      have hnext : u.calcTag.autoReinit.ok p := by apply GcmUnit.autoReinit_ok <;> simpa
      simpa [hauto] using hnext

/-! ### Unit DG -/

theorem leafStart_flags (alg : HashAlg) (prm : DgPrm) (i : Nat) :
    (leafStart alg prm i).f0 = 0 ∧ (leafStart alg prm i).f1 = 0 := by
  cases alg <;> exact ⟨rfl, rfl⟩

theorem leafKey_flags (prm : DgPrm) (key : Bytes) (l : Leaf) :
    (leafKey prm key l).f0 = l.f0 ∧ (leafKey prm key l).f1 = l.f1 := by
  unfold leafKey
  split_ifs <;> exact ⟨rfl, rfl⟩

theorem leafAbsorb_flags (alg : HashAlg) (prm : DgPrm) (key : Bytes) (l : Leaf) (b : Bytes) :
    (leafAbsorb alg prm key l b).f0 = l.f0 ∧ (leafAbsorb alg prm key l b).f1 = l.f1 := by
  cases alg <;> simp [leafAbsorb, leafKey_flags]

/-- The loop of R291 feeds a started unit with leaves and buffer of a started unit. -/
theorem DgUnit.setStreams_started {p : Params} {u : DgUnit} (h : u.started p) {leaves : List Leaf} {buf : Bytes}
    (hleaves : leaves.length = u.P) (hbuf : buf.length ≤ 2 * u.W) (hflags : ∀ l ∈ leaves, l.f0 = 0 ∧ l.f1 = 0) :
    DgUnit.started p { u with leaves := leaves, buf := buf } := by
  obtain ⟨hp, hfan, hdig, hkey, hkeyMax, hkeccak, hleaf, -, -, -⟩ := h
  exact ⟨hp, hfan, hdig, hkey, hkeyMax, hkeccak, hleaf, hleaves, hbuf, hflags⟩

theorem DgUnit.start_started {p : Params} {u : DgUnit} (h : u.started p) : u.start.started p := by
  refine DgUnit.setStreams_started h (by simp) (Nat.zero_le _) fun l hl => ?_
  obtain ⟨i, -, rfl⟩ := List.mem_map.mp hl
  exact leafStart_flags _ _ _

theorem DgUnit.dispatch_started {p : Params} {u : DgUnit} (h : u.started p) : u.dispatch.started p := by
  obtain ⟨-, -, -, -, -, -, -, hleaves, hbuf, hflags⟩ := id h
  refine DgUnit.setStreams_started h (by simpa using hleaves) (by rw [List.length_drop]; omega) fun l hl => ?_
  obtain ⟨i, hi, rfl⟩ := List.mem_mapIdx.mp hl
  obtain ⟨h0, h1⟩ :=
    leafAbsorb_flags u.alg u.prm u.key u.leaves[i] (slice u.buf (i * dgBs u.alg) ((i + 1) * dgBs u.alg))
  obtain ⟨g0, g1⟩ := hflags u.leaves[i] (List.getElem_mem hi)
  exact ⟨h0.trans g0, h1.trans g1⟩

/-- Bytes that fit into the buffer beside what it holds (R57, R291). -/
theorem DgUnit.append_started {p : Params} {u : DgUnit} (h : u.started p) {data : Bytes}
    (hfits : data.length ≤ 2 * u.W - u.buf.length) : DgUnit.started p { u with buf := u.buf ++ data } := by
  obtain ⟨-, -, -, -, -, -, -, hleaves, hbuf, hflags⟩ := id h
  exact DgUnit.setStreams_started h hleaves (by rw [List.length_append]; omega) hflags

/-- Unit DG with room in its buffer for the next bytes (R291). -/
def DgUnit.makeRoom (u : DgUnit) : DgUnit := if u.buf.length = 2 * u.W then u.dispatch else u

@[simp] theorem DgUnit.makeRoom_W (u : DgUnit) : u.makeRoom.W = u.W := by
  unfold DgUnit.makeRoom
  split_ifs <;> rfl

theorem DgUnit.makeRoom_started {p : Params} {u : DgUnit} (h : u.started p) : u.makeRoom.started p := by
  unfold DgUnit.makeRoom
  split_ifs
  · exact DgUnit.dispatch_started h
  · exact h

/-- One round of the loop of R291: make room, then take as many bytes as fit. -/
theorem DgUnit.feed_succ (fuel : Nat) (u : DgUnit) {data : Bytes} (hdata : ¬ data.isEmpty = true) :
    DgUnit.feed (fuel + 1) u data =
      DgUnit.feed fuel
        { u.makeRoom with
          buf := u.makeRoom.buf ++ data.take (min data.length (2 * u.W - u.makeRoom.buf.length)) }
        (data.drop (min data.length (2 * u.W - u.makeRoom.buf.length))) := by
  rw [DgUnit.feed, if_neg hdata]
  rfl

theorem DgUnit.feed_started {p : Params} (fuel : Nat) {u : DgUnit} (h : u.started p) (data : Bytes) :
    (DgUnit.feed fuel u data).started p := by
  induction fuel generalizing u data with
  | zero => exact h
  | succ fuel ih =>
    by_cases hdata : data.isEmpty = true
    · rw [DgUnit.feed, if_pos hdata]
      exact h
    · rw [DgUnit.feed_succ fuel u hdata]
      refine ih (DgUnit.append_started (DgUnit.makeRoom_started h) ?_) _
      rw [List.length_take, DgUnit.makeRoom_W]
      omega

theorem DgUnit.update_started {p : Params} {u : DgUnit} (h : u.started p) (data : Bytes) : (u.update data).started p :=
  DgUnit.feed_started _ h data

/-- A unit that is in phase Ready is started. -/
theorem DgUnit.ok.started {p : Params} {u : DgUnit} (h : u.ok p) (hp : u.phase = .ready) : u.started p := by
  rcases h with rfl | h
  · cases hp
  · exact h

/-- What the checks of DG.INIT say of a record that passes them (R284, R288). -/
theorem dgRecordCheck_none {p : Params} {alg : HashAlg} {n : Nat} {r : DgRecord}
    (h : dgRecordCheck p alg n r = none) :
    r.digestLen = 64 ∧ r.keyLen.toNat ≤ 64 ∧ (alg = .keccak → r.keyLen = 0) ∧ n = 19 + r.keyLen.toNat ∧
      fanoutLegal p r.fanout.toNat = true ∧ r.leafLen.toNat % dgBs alg = 0 := by
  unfold dgRecordCheck at h
  split_ifs at h with hdigest hkey hlen hfanout hleaf
  refine ⟨not_not.mp hdigest, by omega, fun halg => ?_, not_not.mp hlen, by simpa using hfanout, ?_⟩
  · by_contra hne
    exact hkey (.inr ⟨halg, hne⟩)
  · by_cases hzero : r.leafLen = 0
    · simp [hzero]
    · by_contra hne
      exact hleaf ⟨hzero, hne⟩

/-- A record that passes the checks of DG.INIT starts the unit (R284, R288). -/
theorem DgUnit.init_started {p : Params} {alg : HashAlg} {n : Nat} {r : DgRecord}
    (hcheck : dgRecordCheck p alg n r = none) (hkey : r.key.length = n - 19) : (DgUnit.init alg r).started p := by
  obtain ⟨hdigest, hmax, hkeccak, hlen, hfanout, hleaf⟩ := dgRecordCheck_none hcheck
  have hkeyLen : r.key.length = r.keyLen.toNat := by omega
  refine ⟨rfl, hfanout, hdigest, hkeyLen, hkeyLen.trans_le hmax, fun halg => ?_, hleaf, ?_, Nat.zero_le _, ?_⟩
  · have hzero : r.key.length = 0 := by rw [hkeyLen, hkeccak halg]; rfl
    exact List.length_eq_zero_iff.mp hzero
  · simp [DgUnit.init, DgUnit.start, DgUnit.P]
  · intro l hl
    obtain ⟨i, -, rfl⟩ := List.mem_map.mp hl
    exact leafStart_flags _ _ _

/-! ### Units JENT and DRBG -/

/-- A store written from nothing, inside a bound. -/
theorem writeBytes_nil_ok {a n : Nat} {v : Bytes} (h : a + v.length ≤ n) :
    (Memory.writeBytes [] a v).wf ∧ (Memory.writeBytes [] a v).below n :=
  ⟨Memory.writeBytes_wf a v Memory.nil_wf, Memory.writeBytes_below (Memory.nil_below n) (.inr h)⟩

theorem JentUnit.drawn_mem (u : JentUnit) (n : Nat) :
    (u.drawn n).mem = Memory.writeBytes [] 0 (drawBytes (Config.jentScratch n) 16384) := by
  simp only [JentUnit.drawn]

theorem JentUnit.drawn_ok (u : JentUnit) (n : Nat) : (u.drawn n).ok := by
  rw [JentUnit.ok, JentUnit.drawn_mem]
  exact writeBytes_nil_ok (by rw [drawBytes_length, Nat.zero_add])

theorem DrbgUnit.init_ok {p : Params} {kind : BitVec 2} {seed : Bytes} (hkind : kind ≠ 3)
    (hseed : minSeed p kind ≤ seed.length) : (DrbgUnit.init p kind seed).ok p :=
  .inr ⟨rfl, hkind, hseed, DrbgUnit.refill_buf_length _ _, Nat.zero_le _⟩

/-- Unit DRBG with a new seed (R364). -/
theorem DrbgUnit.reseed_ok {p : Params} {u : DrbgUnit} (h : u.ok p) (hp : u.phase = .ready) {seed : Bytes}
    (hseed : minSeed p u.kind ≤ seed.length) : (DrbgUnit.fill { u with seed := seed } p.drbgBuf).ok p := by
  rcases h with rfl | ⟨-, hkind, -, -, -⟩
  · cases hp
  · exact .inr ⟨hp, hkind, hseed, DrbgUnit.refill_buf_length _ _, Nat.zero_le _⟩

theorem DrbgUnit.refill_ok {p : Params} {u : DrbgUnit} (h : u.ok p) (hp : u.phase = .ready) :
    (u.refill p.drbgBuf).ok p := by
  rcases h with rfl | ⟨-, hkind, hseed, -, -⟩
  · cases hp
  · exact .inr ⟨hp, hkind, hseed, DrbgUnit.refill_buf_length _ _, Nat.zero_le _⟩

theorem DrbgUnit.setIdx_ok {p : Params} {u : DrbgUnit} (h : u.ok p) (hp : u.phase = .ready) {idx : Nat}
    (hidx : idx ≤ p.drbgBuf) : DrbgUnit.ok p { u with idx := idx } := by
  rcases h with rfl | ⟨-, hkind, hseed, hbuf, -⟩
  · cases hp
  · exact .inr ⟨hp, hkind, hseed, hbuf, hidx⟩

theorem DrbgUnit.ok.idx_le {p : Params} {u : DrbgUnit} (h : u.ok p) : u.idx ≤ p.drbgBuf := by
  rcases h with rfl | ⟨-, -, -, -, hidx⟩
  · exact Nat.zero_le _
  · exact hidx

/-- Unit DRBG with at least one byte left in its buffer (R363). -/
def DrbgUnit.freshen (u : DrbgUnit) (bufSize : Nat) : DrbgUnit := if u.idx = bufSize then u.refill bufSize else u

theorem DrbgUnit.freshen_ok {p : Params} {u : DrbgUnit} (h : u.ok p) (hp : u.phase = .ready) :
    (u.freshen p.drbgBuf).ok p ∧ (u.freshen p.drbgBuf).phase = .ready := by
  unfold DrbgUnit.freshen
  split_ifs
  · exact ⟨DrbgUnit.refill_ok h hp, hp⟩
  · exact ⟨h, hp⟩

/-- One round of the loop of R363: refill an exhausted buffer, then take as many bytes as it still holds. -/
theorem drbgLoop_succ (bufSize fuel : Nat) {n : Nat} (u : DrbgUnit) (hn : n ≠ 0) :
    drbgLoop bufSize (fuel + 1) n u =
      let v := u.freshen bufSize
      let k := min n (bufSize - v.idx)
      let r := drbgLoop bufSize fuel (n - k) { v with idx := v.idx + k }
      (slice v.buf v.idx (v.idx + k) ++ r.1, r.2) := by
  rw [drbgLoop, if_neg hn]
  rfl

/-- DRBG.GEN delivers no byte more than it is asked for (R363). -/
theorem drbgLoop_length_le (bufSize fuel n : Nat) (u : DrbgUnit) : (drbgLoop bufSize fuel n u).1.length ≤ n := by
  induction fuel generalizing n u with
  | zero => exact Nat.zero_le _
  | succ fuel ih =>
    by_cases hn : n = 0
    · rw [drbgLoop, if_pos hn]
      exact Nat.zero_le _
    · rw [drbgLoop_succ _ _ _ hn]
      dsimp only
      rw [List.length_append, slice_length]
      refine Nat.le_trans (Nat.add_le_add_left (ih _ _) _) ?_
      omega

/-- The loop of R363 keeps the invariant of an initialized unit. -/
theorem drbgLoop_ok {p : Params} (fuel n : Nat) {u : DrbgUnit} (h : u.ok p) (hp : u.phase = .ready) :
    (drbgLoop p.drbgBuf fuel n u).2.ok p := by
  induction fuel generalizing n u with
  | zero => exact h
  | succ fuel ih =>
    by_cases hn : n = 0
    · rw [drbgLoop, if_pos hn]
      exact h
    · rw [drbgLoop_succ _ _ _ hn]
      obtain ⟨hv, hvp⟩ := DrbgUnit.freshen_ok h hp
      have hidx := hv.idx_le
      exact ih _ (DrbgUnit.setIdx_ok hv hvp (by omega)) hvp

end Sys2Proof.Machine
end

section
/-! The invariant of the machine: at reset, under the updates that the commands are made of, and in every step. -/

namespace Sys2Proof.Machine

/-- The invariant without STATUS and RESULT, which the end of every command writes anew (`inv_iff`). -/
structure State.bodyInv (s : State) : Prop where
  legal : s.cfg.legal
  memory : memoryOk s
  ctrPar : s.ctr.par.ok s.cfg 2
  gcmPar : s.gcm.par.ok s.cfg 3
  ssPar : s.ss.par.ok s.cfg 5
  ctr : s.ctr.ok
  gcm : s.gcm.ok s.cfg
  dg : s.dg.ok s.cfg
  ss : s.ss.ok
  jent : s.jent.ok
  drbg : s.drbg.ok s.cfg

theorem inv_iff (s : State) : s.inv ↔ s.status.coherent s.result ∧ s.bodyInv := by
  constructor
  · rintro ⟨hlegal, hstatus, hmem, ⟨hcp, hgp, hsp⟩, hctr, hgcm, hdg, hss, hjent, hdrbg⟩
    exact ⟨hstatus, hlegal, hmem, hcp, hgp, hsp, hctr, hgcm, hdg, hss, hjent, hdrbg⟩
  · rintro ⟨hstatus, hlegal, hmem, hcp, hgp, hsp, hctr, hgcm, hdg, hss, hjent, hdrbg⟩
    exact ⟨hlegal, hstatus, hmem, ⟨hcp, hgp, hsp⟩, hctr, hgcm, hdg, hss, hjent, hdrbg⟩

/-! ### Reset -/

theorem Par.reset_ok (p : Params) (target : Byte) : Par.reset.ok p target := ⟨fun _ => rfl, nofun⟩

theorem Status.reset_coherent : Status.reset.coherent 0 :=
  ⟨fun _ => ⟨rfl, rfl, rfl⟩, nofun, nofun, nofun⟩

/-- The state after reset meets the invariant, whatever DMEM and unit JENT hold (R64, R440). -/
theorem resetWith_bodyInv {p : Params} (hp : p.legal) {m : Memory} (hm : m.wf ∧ m.below p.dmemSize) {j : JentUnit}
    (hj : j.ok) : (State.resetWith p m j).bodyInv where
  legal := hp
  memory := hm
  ctrPar := Par.reset_ok p 2
  gcmPar := Par.reset_ok p 3
  ssPar := Par.reset_ok p 5
  ctr := CtrUnit.zeroize_ok CtrUnit.reset
  gcm := GcmUnit.zeroize_ok p GcmUnit.reset
  dg := .inl rfl
  ss := SsUnit.zeroize_ok SsUnit.reset
  jent := hj
  drbg := .inl rfl

theorem JentUnit.reset_ok : JentUnit.reset.ok := ⟨Memory.nil_wf, Memory.nil_below _⟩

/-- Settles O27: every unit is zeroized, DMEM lists nothing, and every profile is off. -/
theorem resetMeetsInvariant : Obligations.ResetMeetsInvariant := by
  have hreset : ∀ p : Params, p.legal → (State.resetWith p [] JentUnit.reset).inv := fun p hp =>
    (inv_iff _).mpr
      ⟨Status.reset_coherent, resetWith_bodyInv hp ⟨Memory.nil_wf, Memory.nil_below _⟩ JentUnit.reset_ok⟩
  exact ⟨hreset Params.standard (by decide), hreset⟩

theorem freeDmem_ok (p : Params) (n : Nat) : (freeDmem p n).wf ∧ (freeDmem p n).below p.dmemSize :=
  writeBytes_nil_ok (by simp)

theorem spoiltDmem_ok (p : Params) (n : Nat) : (spoiltDmem p n).wf ∧ (spoiltDmem p n).below p.dmemSize :=
  writeBytes_nil_ok (by simp)

/-- A hardware reset meets the invariant again (R440). -/
theorem hardReset_inv {s : State} (hp : s.cfg.legal) : (hardReset s).inv := by
  have hbody := resetWith_bodyInv hp (freeDmem_ok s.cfg s.draws) (JentUnit.drawn_ok _ s.draws : (freeJent s.draws).ok)
  exact (inv_iff _).mpr ⟨Status.reset_coherent, { hbody with }⟩

/-! ### STATUS and RESULT -/

theorem Status.issued_coherent (fault : Bool) :
    Status.coherent
      { busy := true, err := false, vok := false, fault := fault, ekind := 0, eunit := 0, ecause := 0 } 0 :=
  ⟨fun _ => ⟨rfl, rfl, rfl⟩, nofun, fun _ => ⟨rfl, rfl⟩, nofun⟩

theorem Status.ended_coherent (st : Status) {ok : Bool} {v : Word} (hv : ok = true → v = 1) :
    (st.ended ok).coherent v :=
  ⟨fun _ => ⟨rfl, rfl, rfl⟩, nofun, nofun, hv⟩

/-- The pair of codes of a cause is a row of the table of R402. -/
theorem causeRow_of_mem {c : Cause} (h : c ∈ allCauses) : causeRow c.kind.code c.code = true :=
  List.any_eq_true.mpr ⟨c, h, by simp⟩

theorem Status.raised_coherent (st : Status) (u : UnitId) {c : Cause} (h : c ∈ allCauses) :
    (st.raised u c).coherent 0 :=
  ⟨nofun, fun _ => ⟨rfl, rfl, rfl, causeRow_of_mem h⟩, nofun, nofun⟩

/-- The causes of a command are rows of the table of R402: the reserved cause is none of them. -/
theorem causes_subset_allCauses (i : Instr) : i.causes ⊆ allCauses := by
  cases i <;> exact List.subset_def.mpr (by simp [Instr.causes, allCauses])

theorem decodeCause_mem_allCauses (e : DecodeError) : decodeCause e ∈ allCauses := by cases e <;> decide

/-! ### Errors -/

/-- The unit effect of an error keeps the invariant: the unit is zeroized or left alone (R65, R410). -/
theorem unitEffect_bodyInv {s : State} (h : s.bodyInv) (u : UnitId) : (unitEffect u s).bodyInv := by
  cases u with
  | sys | jent => exact h
  | gh => exact { h with }
  | ctr => exact { h with ctr := s.ctr.zeroize_ok }
  | gcm =>
    simp only [unitEffect]
    split_ifs
    · exact h
    · exact { h with gcm := s.gcm.zeroize_ok s.cfg }
  | dg => exact { h with dg := .inl rfl }
  | ss => exact { h with ss := s.ss.zeroize_ok }
  | drbg => exact { h with drbg := .inl rfl }

theorem raiseError_inv {s : State} (h : s.bodyInv) (u : UnitId) {c : Cause} (hc : c ∈ allCauses) :
    (raiseError u c s).inv :=
  (inv_iff _).mpr ⟨s.status.raised_coherent u hc, { unitEffect_bodyInv h u with }⟩

/-! ### The end of a command and the updates it is made of -/

theorem finishWith_inv {s : State} (h : s.bodyInv) {ok : Bool} {v : Word} (hv : ok = true → v = 1) :
    (finishWith ok v s).inv :=
  (inv_iff _).mpr ⟨s.status.ended_coherent hv, { h with }⟩

theorem finish_inv {s : State} (h : s.bodyInv) (v : Word) : (finish v s).inv := finishWith_inv h nofun

theorem storeBytes_bodyInv {s : State} (h : s.bodyInv) {a n : Nat} {v : Bytes} (hr : inRange s.cfg a n = true)
    (hv : v.length ≤ n) : (s.storeBytes a v).bodyInv :=
  { h with memory := storeBytes_memoryOk h.memory hr hv }

end Sys2Proof.Machine
end

section
/-! What each check of a command says when it passes, as far as the invariant needs it, and from it that every command
and every step keeps the invariant. -/

namespace Sys2Proof.Machine

/-! ### The checks, passed -/

theorem inRange_of_check {p : Params} {a n : Nat} {c : Cause} (h : (if !inRange p a n then some c else none) = none) :
    inRange p a n = true := by
  simpa using h

theorem sysSetparCheck_none {target : Byte} {en : Bool} {degree block : Word} {s : State}
    (h : sysSetparCheck target en degree block s = none) (hp : s.cfg.legal) :
    Par.ok s.cfg target { en := en, degree := degree.setWidth 8, block := block } := by
  obtain ⟨-, -, -, -, hnproc, -, -⟩ := hp
  cases en with
  | false =>
    simp only [sysSetparCheck, Bool.false_eq_true, if_false] at h
    split_ifs at h with htarget hdegree hblock
    obtain rfl := not_not.mp hdegree
    obtain rfl := not_not.mp hblock
    exact ⟨fun _ => rfl, nofun⟩
  | true =>
    simp only [sysSetparCheck, if_true] at h
    split_ifs at h with htarget hdegree hblock
    refine ⟨nofun, fun _ => ?_⟩
    have hwidth : (degree.setWidth 8).toNat = degree.toNat := by
      rw [BitVec.toNat_setWidth]
      omega
    have hne : block ≠ 0 := by
      rintro rfl
      simp at hblock
    obtain ⟨hmin, heven, hmax⟩ : 2 ≤ degree.toNat ∧ degree.toNat % 2 = 0 ∧ degree.toNat ≤ s.cfg.nproc := by omega
    have hmultiple : block.toNat % parMin s.cfg target = 0 := by
      by_contra hmod
      exact hblock (.inr hmod)
    simp only [hwidth]
    exact ⟨hmin, heven, hmax, hne, hmultiple⟩

theorem ctrInitCheck_none {kc len : Word} {s : State} (h : ctrInitCheck kc len s = none) :
    aesKeyLegal (parseContainer (operand s kc len)).key = true := by
  unfold ctrInitCheck at h
  split_ifs at h
  simp_all

theorem ctrXformCheck_none {src dst len : Word} {s : State} (h : ctrXformCheck src dst len s = none) :
    s.ctr.phase = .ready ∧ inRange s.cfg dst.toNat len.toNat = true := by
  unfold ctrXformCheck at h
  split_ifs at h with hp
  obtain ⟨-, hdst, -⟩ := xformRangeCheck_none.mp h
  exact ⟨not_not.mp hp, hdst⟩

theorem ssInitCheck_none {rounds : Byte} {kc len : Word} {s : State} (h : ssInitCheck rounds kc len s = none) :
    roundsLegal rounds = true := by
  unfold ssInitCheck at h
  split_ifs at h
  simp_all

theorem ssXformCheck_none {src dst len : Word} {s : State} (h : ssXformCheck src dst len s = none) :
    s.ss.phase = .ready ∧ inRange s.cfg dst.toNat len.toNat = true := by
  unfold ssXformCheck at h
  split_ifs at h with hp
  obtain ⟨-, hdst, -⟩ := xformRangeCheck_none.mp h
  exact ⟨not_not.mp hp, hdst⟩

theorem gcmInitCheck_none {kc len : Word} {s : State} (h : gcmInitCheck kc len s = none) :
    aesKeyLegal (parseContainer (operand s kc len)).key = true ∧
      8 ≤ (parseContainer (operand s kc len)).nonce.length ∧
      (parseContainer (operand s kc len)).nonce.length ≤ 16 := by
  simp only [gcmInitCheck] at h
  split_ifs at h with hrange hfit hkey hnonce
  exact ⟨by simpa using hkey, by omega⟩

theorem gcmAadCheck_none {src len : Word} {s : State} (h : gcmAadCheck src len s = none) :
    s.gcm.phase = .ready ∧ (s.gcm.preserveAd = true → len.toNat ≤ s.cfg.aadMax) := by
  unfold gcmAadCheck at h
  split_ifs at h with huninit hfinal hready hlong
  exact ⟨not_not.mp hready, fun hkeep => by
    by_contra hlen
    exact hlong ⟨hkeep, by omega⟩⟩

theorem gcmXformCheck_none {src dst len : Word} {s : State} (h : gcmXformCheck src dst len s = none) :
    s.gcm.phase ≠ .uninit ∧ inRange s.cfg dst.toNat len.toNat = true := by
  unfold gcmXformCheck at h
  split_ifs at h with hp
  obtain ⟨-, hdst, -⟩ := xformRangeCheck_none.mp h
  exact ⟨hp, hdst⟩

theorem gcmFinalCheck_none {base offset : Word} {tagLen : Byte} {s : State}
    (h : gcmFinalCheck base offset tagLen s = none) :
    s.gcm.phase ≠ .uninit ∧ inRange s.cfg (tagAddress base offset) tagLen.toNat = true := by
  unfold gcmFinalCheck at h
  split_ifs at h with hp htag hrange
  exact ⟨hp, by simpa using hrange⟩

theorem gcmVerifyCheck_none {base offset : Word} {tagLen : Byte} {s : State}
    (h : gcmVerifyCheck base offset tagLen s = none) : s.gcm.phase ≠ .uninit := by
  unfold gcmVerifyCheck at h
  split_ifs at h with hp
  exact hp

theorem dgInitCheck_none {alg : HashAlg} {addr len : Word} {s : State} (h : dgInitCheck alg addr len s = none) :
    dgRecordCheck s.cfg alg len.toNat (parseDgRecord (operand s addr len)) = none := by
  unfold dgInitCheck at h
  split_ifs at h
  exact h

theorem dgUpdateCheck_none {src len : Word} {s : State} (h : dgUpdateCheck src len s = none) :
    s.dg.phase = .ready := by
  unfold dgUpdateCheck at h
  split_ifs at h with hp
  exact not_not.mp hp

theorem dgFinalCheck_none {dst : Word} {s : State} (h : dgFinalCheck dst s = none) :
    s.dg.phase = .ready ∧ inRange s.cfg dst.toNat 64 = true := by
  unfold dgFinalCheck at h
  split_ifs at h with hp hrange
  exact ⟨not_not.mp hp, by simpa using hrange⟩

theorem dgComputeCheck_none {src dst len : Word} {s : State} (h : dgComputeCheck src dst len s = none) :
    s.dg.phase = .ready ∧ inRange s.cfg dst.toNat 64 = true := by
  unfold dgComputeCheck at h
  split_ifs at h with hp hsrc hdst
  exact ⟨not_not.mp hp, by simpa using hdst⟩

theorem jentGetCheck_none {dst len : Word} {s : State} (h : jentGetCheck dst len s = none) :
    inRange s.cfg dst.toNat len.toNat = true := by
  unfold jentGetCheck at h
  split_ifs at h with havail hdst
  simpa using hdst

theorem drbgInitCheck_none {kind : BitVec 2} {seed len : Word} {s : State}
    (h : drbgInitCheck kind seed len s = none) : kind ≠ 3 ∧ minSeed s.cfg kind ≤ len.toNat := by
  unfold drbgInitCheck at h
  split_ifs at h with hkind hsrc hseed
  exact ⟨hkind, by omega⟩

theorem drbgGenCheck_none {dst len : Word} {s : State} (h : drbgGenCheck dst len s = none) :
    s.drbg.phase = .ready ∧ inRange s.cfg dst.toNat len.toNat = true := by
  unfold drbgGenCheck at h
  split_ifs at h with hp hdst
  exact ⟨not_not.mp hp, by simpa using hdst⟩

theorem drbgResetCheck_none {s : State} (h : drbgResetCheck s = none) : s.drbg.phase = .ready := by
  unfold drbgResetCheck at h
  split_ifs at h with hp
  exact not_not.mp hp

/-! ### The commands, unit by unit -/

theorem State.bodyInv.setGh {s : State} (h : s.bodyInv) (u : GhUnit) : State.bodyInv { s with gh := u } := { h with }

theorem State.bodyInv.setCtr {s : State} (h : s.bodyInv) {u : CtrUnit} (hu : u.ok) (hp : u.par = s.ctr.par) :
    State.bodyInv { s with ctr := u } :=
  { h with ctr := hu, ctrPar := hp ▸ h.ctrPar }

theorem State.bodyInv.setGcm {s : State} (h : s.bodyInv) {u : GcmUnit} (hu : u.ok s.cfg) (hp : u.par = s.gcm.par) :
    State.bodyInv { s with gcm := u } :=
  { h with gcm := hu, gcmPar := hp ▸ h.gcmPar }

theorem State.bodyInv.setSs {s : State} (h : s.bodyInv) {u : SsUnit} (hu : u.ok) (hp : u.par = s.ss.par) :
    State.bodyInv { s with ss := u } :=
  { h with ss := hu, ssPar := hp ▸ h.ssPar }

theorem State.bodyInv.setDg {s : State} (h : s.bodyInv) {u : DgUnit} (hu : u.ok s.cfg) :
    State.bodyInv { s with dg := u } :=
  { h with dg := hu }

/-- A draw changes unit JENT and the draw counter, which the invariant does not mention (R352). -/
theorem State.bodyInv.setJent {s : State} (h : s.bodyInv) {u : JentUnit} (hu : u.ok) (n : Nat) :
    State.bodyInv { s with jent := u, draws := n } :=
  { h with jent := hu }

theorem State.bodyInv.setDrbg {s : State} (h : s.bodyInv) {u : DrbgUnit} (hu : u.ok s.cfg) :
    State.bodyInv { s with drbg := u } :=
  { h with drbg := hu }

theorem setPar_bodyInv {s : State} (h : s.bodyInv) {target : Byte} {par : Par} (hp : par.ok s.cfg target) :
    (setPar target par s).bodyInv := by
  unfold setPar
  split_ifs with h2 h3 h5
  · exact { h with ctrPar := h2 ▸ hp, ctr := CtrUnit.setPar_ok h.ctr par }
  · exact { h with gcmPar := h3 ▸ hp, gcm := GcmUnit.setPar_ok h.gcm par }
  · exact { h with ssPar := h5 ▸ hp, ss := SsUnit.setPar_ok h.ss par }
  · exact h

theorem zeroizeAll_bodyInv {s : State} (h : s.bodyInv) : (zeroizeAll s).bodyInv :=
  { h with
    ctrPar := Par.reset_ok s.cfg 2
    gcmPar := Par.reset_ok s.cfg 3
    ssPar := Par.reset_ok s.cfg 5
    ctr := CtrUnit.zeroize_ok CtrUnit.reset
    gcm := GcmUnit.zeroize_ok s.cfg GcmUnit.reset
    dg := .inl rfl
    ss := SsUnit.zeroize_ok SsUnit.reset
    drbg := by
      rw [zeroizeAll_drbg]
      split_ifs
      · exact .inl rfl
      · exact h.drbg }

theorem ctrXformEffect_inv {s : State} (h : s.bodyInv) {src dst len : Word}
    (hc : ctrXformCheck src dst len s = none) : (ctrXformEffect src dst len s).inv := by
  obtain ⟨hp, hdst⟩ := ctrXformCheck_none hc
  rw [ctrXformEffect]
  have hu := CtrUnit.setCounter_ok h.ctr hp (ctrStream s.ctr.key s.ctr.c (operand s src len)).2
  refine finish_inv (storeBytes_bodyInv (h.setCtr hu rfl) hdst ?_) 0
  simpa using ctrStream_length_le s.ctr.key s.ctr.c (operand s src len)

theorem ssXformEffect_inv {s : State} (h : s.bodyInv) {src dst len : Word}
    (hc : ssXformCheck src dst len s = none) : (ssXformEffect src dst len s).inv := by
  obtain ⟨hp, hdst⟩ := ssXformCheck_none hc
  rw [ssXformEffect]
  have hu := SsUnit.setWords_ok h.ss hp (ssStream s.ss.rounds s.ss.s (operand s src len)).2
  refine finish_inv (storeBytes_bodyInv (h.setSs hu rfl) hdst ?_) 0
  simpa using ssStream_length_le s.ss.rounds s.ss.s (operand s src len)

theorem gcmXformEffect_inv {s : State} (h : s.bodyInv) {src dst len : Word}
    (hc : gcmXformCheck src dst len s = none) : (gcmXformEffect src dst len s).inv := by
  obtain ⟨hp, hdst⟩ := gcmXformCheck_none hc
  rw [gcmXformEffect]
  refine finish_inv (storeBytes_bodyInv (h.setGcm (GcmUnit.xform_ok h.gcm hp _) rfl) hdst ?_) 0
  simpa [GcmUnit.xform] using ctrStream_length_le s.gcm.key s.gcm.c (operand s src len)

theorem GcmUnit.takeTag_par (u : GcmUnit) : u.takeTag.1.par = u.par := by
  simp only [GcmUnit.takeTag, GcmUnit.autoReinit]
  split_ifs <;> rfl

theorem gcmFinalEffect_inv {s : State} (h : s.bodyInv) {base offset : Word} {tagLen : Byte}
    (hc : gcmFinalCheck base offset tagLen s = none) : (gcmFinalEffect base offset tagLen s).inv := by
  obtain ⟨hp, hdst⟩ := gcmFinalCheck_none hc
  rw [gcmFinalEffect]
  exact finish_inv
    (storeBytes_bodyInv (h.setGcm (GcmUnit.takeTag_ok h.gcm hp) s.gcm.takeTag_par) hdst (List.length_take_le _ _)) 0

theorem gcmVerifyEffect_inv {s : State} (h : s.bodyInv) {base offset : Word} {tagLen : Byte}
    (hc : gcmVerifyCheck base offset tagLen s = none) : (gcmVerifyEffect base offset tagLen s).inv := by
  rw [gcmVerifyEffect]
  exact finishWith_inv (h.setGcm (GcmUnit.takeTag_ok h.gcm (gcmVerifyCheck_none hc)) s.gcm.takeTag_par)
    fun hok => if_pos hok

/-- The finalization of R292 from a started unit. -/
theorem dgFinalize_inv {s : State} (h : s.bodyInv) {u : DgUnit} (hu : u.started s.cfg) {dst : Word}
    (hdst : inRange s.cfg dst.toNat 64 = true) : (dgFinalize u dst s).inv :=
  finish_inv (storeBytes_bodyInv (h.setDg (.inr (DgUnit.start_started hu))) hdst u.digest_length_le) 0

theorem jentGetEffect_inv {s : State} (h : s.bodyInv) {dst len : Word}
    (hc : jentGetCheck dst len s = none) : (jentGetEffect dst len s).inv := by
  have hbody := h.setJent (JentUnit.drawn_ok s.jent (s.draws + len.toNat)) (s.draws + len.toNat + 1)
  exact finish_inv (storeBytes_bodyInv hbody (jentGetCheck_none hc) (by simp [jentBytes])) 0

theorem drbgGenEffect_inv {s : State} (h : s.bodyInv) {dst len : Word}
    (hc : drbgGenCheck dst len s = none) : (drbgGenEffect dst len s).inv := by
  obtain ⟨hp, hdst⟩ := drbgGenCheck_none hc
  rw [drbgGenEffect]
  exact finish_inv
    (storeBytes_bodyInv (h.setDrbg (drbgLoop_ok _ _ h.drbg hp)) hdst (drbgLoop_length_le _ _ _ _)) 0

theorem drbgResetEffect_inv {s : State} (h : s.bodyInv)
    (hc : drbgResetCheck s = none) : (drbgResetEffect s).inv := by
  have hu := DrbgUnit.reseed_ok h.drbg (drbgResetCheck_none hc) (seed := jentBytes s (minSeed s.cfg s.drbg.kind))
    (by simp [jentBytes])
  exact finish_inv { h.setDrbg hu with } 0

/-- The effect of a command keeps the invariant. -/
theorem commandEffect_inv {i : Instr} {s : State} (h : s.bodyInv) (hc : commandCheck i s = none) :
    (commandEffect i s).inv := by
  cases i with
  | sysNop => exact finish_inv h 0
  | sysReset => exact finish_inv (zeroizeAll_bodyInv h) 0
  | sysSetpar => exact finish_inv (setPar_bodyInv h (sysSetparCheck_none hc h.legal)) 0
  | ghInit | ghUpdate | ghSegment | ghReset | ghDestroy => exact finish_inv (h.setGh _) 0
  | ghFinal aadLen msgLen dst =>
    exact finish_inv (storeBytes_bodyInv (h.setGh _) (inRange_of_check hc) (by simp)) 0
  | ghRead => exact finish_inv (storeBytes_bodyInv h (inRange_of_check hc) (by simp)) 0
  | ctrInit => exact finish_inv (h.setCtr (CtrUnit.init_ok _ (ctrInitCheck_none hc)) rfl) 0
  | ctrXform => exact ctrXformEffect_inv h hc
  | ctrDestroy => exact finish_inv (h.setCtr (CtrUnit.zeroize_ok _) rfl) 0
  | gcmInit =>
    obtain ⟨hkey, hmin, hmax⟩ := gcmInitCheck_none hc
    exact finish_inv (h.setGcm (GcmUnit.init_ok _ _ _ _ _ hkey hmin hmax) rfl) 0
  | gcmAad =>
    obtain ⟨hp, hfits⟩ := gcmAadCheck_none hc
    exact finish_inv (h.setGcm (GcmUnit.absorbAad_ok h.gcm hp (by simpa using hfits)) rfl) 0
  | gcmXform => exact gcmXformEffect_inv h hc
  | gcmFinal => exact gcmFinalEffect_inv h hc
  | gcmVerify => exact gcmVerifyEffect_inv h hc
  | gcmDestroy => exact finish_inv (h.setGcm (GcmUnit.zeroizeWithGuard_ok _ _) rfl) 0
  | dgInit =>
    exact finish_inv (h.setDg (.inr (DgUnit.init_started (dgInitCheck_none hc) (by simp [parseDgRecord])))) 0
  | dgUpdate => exact finish_inv (h.setDg (.inr (DgUnit.update_started (h.dg.started (dgUpdateCheck_none hc)) _))) 0
  | dgFinal =>
    obtain ⟨hp, hdst⟩ := dgFinalCheck_none hc
    exact dgFinalize_inv h (h.dg.started hp) hdst
  | dgReset =>
    have hp : s.dg.phase = .ready := by simpa [commandCheck] using hc
    exact finish_inv (h.setDg (.inr (DgUnit.start_started (h.dg.started hp)))) 0
  | dgCompute =>
    obtain ⟨hp, hdst⟩ := dgComputeCheck_none hc
    exact dgFinalize_inv h (DgUnit.update_started (h.dg.started hp) _) hdst
  | dgDestroy => exact finish_inv (h.setDg (.inl rfl)) 0
  | ssInit => exact finish_inv (h.setSs (SsUnit.init_ok _ (ssInitCheck_none hc) _) rfl) 0
  | ssXform => exact ssXformEffect_inv h hc
  | ssDestroy => exact finish_inv (h.setSs (SsUnit.zeroize_ok _) rfl) 0
  | jentGet => exact jentGetEffect_inv h hc
  | jentNext => exact finish_inv (h.setJent (JentUnit.drawn_ok s.jent s.draws) _) _
  | jentAvail => exact finish_inv h _
  | drbgInit =>
    obtain ⟨hkind, hseed⟩ := drbgInitCheck_none hc
    exact finish_inv (h.setDrbg (DrbgUnit.init_ok hkind (by simpa using hseed))) 0
  | drbgGen => exact drbgGenEffect_inv h hc
  | drbgReset => exact drbgResetEffect_inv h hc
  | drbgDestroy => exact finish_inv (h.setDrbg (.inl rfl)) 0

/-- Every command keeps the invariant, in error and in success. -/
theorem exec_inv {i : Instr} {s t : State} (h : s.bodyInv) (hs : exec i s = .next t) : t.inv := by
  rcases exec_cases hs with ⟨c, hcause, rfl⟩ | ⟨hc, rfl⟩
  · exact raiseError_inv h i.unit (causes_subset_allCauses i hcause)
  · exact commandEffect_inv h hc

/-! ### The steps -/

/-- A step of the sequencer: a command or a decoding error (R116, R405). -/
theorem sequencerStep_inv {s t : State} (h : s.bodyInv) (hs : sequencerStep s = .next t) : t.inv := by
  obtain ⟨r, hr, rfl⟩ := sequencerStep_next hs
  have hinv : r.inv := by
    rcases runCommand_next hr with ⟨i, -, hi⟩ | ⟨e, -, rfl⟩
    · exact exec_inv h hi
    · exact raiseError_inv h .sys (decodeCause_mem_allCauses e)
  exact hinv

/-- The register writes of the host change STATUS and RESULT together: an issue clears both (R36, R38). -/
theorem regWrite_inv {s : State} (h : s.inv) (offset : Nat) (v : Word) : (regWrite offset v s).inv := by
  obtain ⟨hstatus, hbody⟩ := (inv_iff s).mp h
  rcases regWrite_cases offset v s with hw | hw | hw | hw | hw <;> rw [hw]
  · exact (inv_iff _).mpr ⟨Status.issued_coherent _, { hbody with }⟩
  all_goals exact h

/-- FAULT is no part of the invariant: it may be set in any state (R450). -/
theorem setFault_inv {s : State} (h : s.inv) : (setFault s).inv := h

theorem regWriteBusy_inv {s : State} (h : s.inv) (offset : Nat) : (regWriteBusy offset s).inv := by
  unfold regWriteBusy
  split_ifs
  · exact setFault_inv h
  · exact h

/-- A move of the host while BUSY is 0 (R450). -/
theorem hostMove_inv {m : HostMove} {s t : State} (h : s.inv) (hm : hostMove m s = .next t) : t.inv := by
  obtain ⟨hstatus, hbody⟩ := (inv_iff s).mp h
  cases m with
  | readReg width offset =>
    obtain ⟨rfl, -⟩ := regAccess_next hm
    exact h
  | writeReg width offset v =>
    obtain ⟨rfl, -⟩ := regAccess_next hm
    exact regWrite_inv h offset v
  | readDmem addr n =>
    obtain ⟨rfl, -⟩ := dmemAccess_next hm
    exact h
  | writeDmem addr bytes =>
    obtain ⟨rfl, hr⟩ := dmemAccess_next hm
    exact (inv_iff _).mpr ⟨hstatus, storeBytes_bodyInv hbody hr (Nat.le_refl _)⟩
  | hardReset =>
    cases hm
    exact hardReset_inv hbody.legal

/-- A move of the host while BUSY is 1 (R450). -/
theorem earlyMove_inv {m : HostMove} {s t : State} (h : s.inv) (hm : earlyMove m s = .next t) : t.inv := by
  obtain ⟨hstatus, hbody⟩ := (inv_iff s).mp h
  cases m with
  | readReg width offset =>
    obtain ⟨rfl, -⟩ := regAccess_next hm
    exact h
  | writeReg width offset v =>
    obtain ⟨rfl, -⟩ := regAccess_next hm
    exact regWriteBusy_inv h offset
  | readDmem addr n =>
    obtain ⟨rfl, -⟩ := dmemAccess_next hm
    exact setFault_inv h
  | writeDmem addr bytes =>
    obtain ⟨rfl, -⟩ := dmemAccess_next hm
    exact setFault_inv ((inv_iff _).mpr ⟨hstatus, { hbody with memory := spoiltDmem_ok s.cfg s.draws }⟩)
  | hardReset =>
    cases hm
    exact hardReset_inv hbody.legal

/-- The moves that the host has still to make are no part of the invariant. -/
theorem inv_setInbox {s : State} (h : s.inv) (rest : List HostEvent) : State.inv { s with inbox := rest } := h

/-- Settles O31: each kind of step of `step_next` keeps the invariant. -/
theorem stepKeepsInvariant : Obligations.StepKeepsInvariant := by
  intro s t h hs
  obtain ⟨-, hbody⟩ := (inv_iff s).mp h
  rcases step_next hs with ⟨-, rest, -, rfl⟩ | ⟨-, -, m, rest, -, hm⟩ | ⟨-, -, m, rest, -, hm⟩ | ⟨-, hq⟩ | ⟨-, rfl⟩
  · exact hardReset_inv hbody.legal
  · exact earlyMove_inv (inv_setInbox h rest) hm
  · exact hostMove_inv (inv_setInbox h rest) hm
  · exact sequencerStep_inv hbody hq
  · exact h

end Sys2Proof.Machine
end

section
/-! Where the units of a next state come from: a step runs a command, is a hardware reset, or changes no unit. -/

namespace Sys2Proof.Machine

/-! ### The moves of the host, once for all of them -/

/-- What a move of the host while BUSY is 0 can be: a hardware reset, a read, a register write or a DMEM write
(R450). -/
theorem hostMove_next {m : HostMove} {s t : State} (h : hostMove m s = .next t) :
    (m = .hardReset ∧ t = hardReset s) ∨ (∃ r, t = reply r s) ∨ (∃ offset v, t = regWrite offset v s) ∨
      ∃ a v, t = s.storeBytes a v := by
  cases m with
  | readReg width offset => exact .inr (.inl ⟨_, (regAccess_next h).1⟩)
  | writeReg width offset v => exact .inr (.inr (.inl ⟨_, _, (regAccess_next h).1⟩))
  | readDmem addr n => exact .inr (.inl ⟨_, (dmemAccess_next h).1⟩)
  | writeDmem addr bytes => exact .inr (.inr (.inr ⟨_, _, (dmemAccess_next h).1⟩))
  | hardReset => exact .inl ⟨rfl, by cases h; rfl⟩

theorem regWriteBusy_cases (offset : Nat) (s : State) :
    regWriteBusy offset s = setFault s ∨ regWriteBusy offset s = s := by
  unfold regWriteBusy
  split_ifs
  · exact .inl rfl
  · exact .inr rfl

/-- What a move of the host while BUSY is 1 can be: a hardware reset, a register read, a register write, which may be
a protocol fault, and the two protocol faults on DMEM (R450). -/
theorem earlyMove_next {m : HostMove} {s t : State} (h : earlyMove m s = .next t) :
    (m = .hardReset ∧ t = hardReset s) ∨ (∃ r, t = reply r s) ∨ (∃ offset, t = regWriteBusy offset s) ∨
      (∃ r n, t = reply r (setFault { s with draws := n })) ∨
      ∃ mem n, t = setFault { s with dmem := mem, draws := n } := by
  cases m with
  | readReg width offset => exact .inr (.inl ⟨_, (regAccess_next h).1⟩)
  | writeReg width offset v => exact .inr (.inr (.inl ⟨_, (regAccess_next h).1⟩))
  | readDmem addr n => exact .inr (.inr (.inr (.inl ⟨_, _, (dmemAccess_next h).1⟩)))
  | writeDmem addr bytes => exact .inr (.inr (.inr (.inr ⟨_, _, (dmemAccess_next h).1⟩)))
  | hardReset => exact .inl ⟨rfl, by cases h; rfl⟩

/-! ### The units (R42) -/

/-- No unit differs. -/
def sameUnits (s t : State) : Prop :=
  t.gh = s.gh ∧ t.ctr = s.ctr ∧ t.gcm = s.gcm ∧ t.dg = s.dg ∧ t.ss = s.ss ∧ t.jent = s.jent ∧ t.drbg = s.drbg

theorem regWrite_sameUnits (offset : Nat) (v : Word) (s : State) : sameUnits s (regWrite offset v s) := by
  rcases regWrite_cases offset v s with h | h | h | h | h <;> rw [h] <;> exact ⟨rfl, rfl, rfl, rfl, rfl, rfl, rfl⟩

theorem hostMove_sameUnits {m : HostMove} {s t : State} (h : hostMove m s = .next t) :
    (m = .hardReset ∧ t = hardReset s) ∨ sameUnits s t := by
  refine (hostMove_next h).imp_right fun h => ?_
  rcases h with ⟨r, rfl⟩ | ⟨offset, v, rfl⟩ | ⟨a, v, rfl⟩
  · exact ⟨rfl, rfl, rfl, rfl, rfl, rfl, rfl⟩
  · exact regWrite_sameUnits offset v s
  · exact ⟨rfl, rfl, rfl, rfl, rfl, rfl, rfl⟩

theorem earlyMove_sameUnits {m : HostMove} {s t : State} (h : earlyMove m s = .next t) :
    (m = .hardReset ∧ t = hardReset s) ∨ sameUnits s t := by
  refine (earlyMove_next h).imp_right fun h => ?_
  rcases h with ⟨r, rfl⟩ | ⟨offset, rfl⟩ | ⟨r, n, rfl⟩ | ⟨mem, n, rfl⟩
  · exact ⟨rfl, rfl, rfl, rfl, rfl, rfl, rfl⟩
  · rcases regWriteBusy_cases offset s with h | h <;> rw [h] <;> exact ⟨rfl, rfl, rfl, rfl, rfl, rfl, rfl⟩
  · exact ⟨rfl, rfl, rfl, rfl, rfl, rfl, rfl⟩
  · exact ⟨rfl, rfl, rfl, rfl, rfl, rfl, rfl⟩

/-- A step is a command taken to its end, a hardware reset, or it changes no unit: a decoding error, another move of
the host, or an idle step (R42, R411, R440, R450). -/
theorem step_units {s t : State} (h : step s = .next t) :
    (commandDue s ∧ ∃ i r, s.decoded = .command i ∧ exec i s = .next r ∧ t = report r) ∨
      (∃ rest, s.nextEvent = some (.hardReset, rest) ∧ t = hardReset { s with inbox := rest }) ∨ sameUnits s t := by
  rcases step_next h with ⟨-, hreset⟩ | ⟨-, -, m, rest, he, hm⟩ | ⟨-, -, m, rest, he, hm⟩ | ⟨hdue, hq⟩ | ⟨-, rfl⟩
  · exact .inr (.inl hreset)
  · rcases earlyMove_sameUnits hm with ⟨rfl, rfl⟩ | hsame
    · exact .inr (.inl ⟨rest, he, rfl⟩)
    · exact .inr (.inr hsame)
  · rcases hostMove_sameUnits hm with ⟨rfl, rfl⟩ | hsame
    · exact .inr (.inl ⟨rest, he, rfl⟩)
    · exact .inr (.inr hsame)
  · obtain ⟨r, hr, rfl⟩ := sequencerStep_next hq
    rcases runCommand_next hr with ⟨i, hi, hx⟩ | ⟨e, -, rfl⟩
    · exact .inl ⟨hdue, i, r, hi, hx, rfl⟩
    · exact .inr (.inr ⟨rfl, rfl, rfl, rfl, rfl, rfl, rfl⟩)
  · exact .inr (.inr ⟨rfl, rfl, rfl, rfl, rfl, rfl, rfl⟩)

end Sys2Proof.Machine
end

section
/-! Unit GCM: its invariant in every step (R53), and its replay guard (R51). -/

namespace Sys2Proof.Machine

/-! ### The invariant -/

theorem setPar_gcm_ok {s : State} (h : s.gcm.ok s.cfg) (target : Byte) (par : Par) :
    (setPar target par s).gcm.ok s.cfg := by
  unfold setPar
  split_ifs
  · exact h
  · exact GcmUnit.setPar_ok h par
  · exact h
  · exact h

/-- The unit effect of an error: unit GCM is zeroized but for its guard, or left alone (R410). -/
theorem unitEffect_gcm (u : UnitId) (s : State) :
    (unitEffect u s).gcm = s.gcm ∨ (unitEffect u s).gcm = s.gcm.zeroize := by
  cases u with
  | gcm =>
    simp only [unitEffect]
    split_ifs
    · exact .inl rfl
    · exact .inr rfl
  | _ => exact .inl rfl

theorem raiseError_gcm (u : UnitId) (c : Cause) (s : State) :
    (raiseError u c s).gcm = s.gcm ∨ (raiseError u c s).gcm = s.gcm.zeroize :=
  unitEffect_gcm u s

/-- Only the commands of units SYS and GCM change unit GCM (R42). -/
theorem commandEffect_gcm {i : Instr} (hsys : i.unit ≠ .sys) (hgcm : i.unit ≠ .gcm) (s : State) :
    (commandEffect i s).gcm = s.gcm := by
  obtain ⟨hframe, -⟩ := commandEffect_frame i s
  obtain ⟨-, -, hother, -⟩ := hframe hsys
  exact hother hgcm

theorem commandEffect_gcm_ok {i : Instr} {s : State} (h : s.gcm.ok s.cfg) (hc : commandCheck i s = none) :
    (commandEffect i s).gcm.ok s.cfg := by
  cases i with
  | sysNop => exact h
  | sysReset => exact GcmUnit.zeroize_ok s.cfg GcmUnit.reset
  | sysSetpar => exact setPar_gcm_ok h _ _
  | gcmInit =>
    obtain ⟨hkey, hmin, hmax⟩ := gcmInitCheck_none hc
    exact GcmUnit.init_ok _ _ _ _ _ hkey hmin hmax
  | gcmAad =>
    obtain ⟨hp, hfits⟩ := gcmAadCheck_none hc
    exact GcmUnit.absorbAad_ok h hp (by simpa using hfits)
  | gcmXform =>
    obtain ⟨hp, -⟩ := gcmXformCheck_none hc
    exact GcmUnit.xform_ok h hp _
  | gcmFinal =>
    obtain ⟨hp, -⟩ := gcmFinalCheck_none hc
    exact GcmUnit.takeTag_ok h hp
  | gcmVerify => exact GcmUnit.takeTag_ok h (gcmVerifyCheck_none hc)
  | gcmDestroy => exact GcmUnit.zeroizeWithGuard_ok _ _
  | _ =>
    rw [commandEffect_gcm (by simp [Instr.unit]) (by simp [Instr.unit])]
    exact h

/-- Every command keeps the invariant of unit GCM, in error and in success. -/
theorem exec_gcm_ok {i : Instr} {s t : State} (h : s.gcm.ok s.cfg) (hs : exec i s = .next t) : t.gcm.ok s.cfg := by
  rcases exec_cases hs with ⟨c, -, rfl⟩ | ⟨hc, rfl⟩
  · rcases raiseError_gcm i.unit c s with hu | hu <;> rw [hu]
    · exact h
    · exact GcmUnit.zeroize_ok s.cfg s.gcm
  · exact commandEffect_gcm_ok h hc

/-- Settles O30: a command keeps the invariant, a hardware reset zeroizes the unit, and no other step changes it. -/
theorem stepKeepsGcm : Obligations.StepKeepsGcm := by
  intro s t h hs
  rw [step_cfg hs]
  rcases step_units hs with ⟨-, i, r, -, hx, rfl⟩ | ⟨rest, -, rfl⟩ | ⟨-, -, hgcm, -⟩
  · rw [report_gcm]
    exact exec_gcm_ok h hx
  · exact GcmUnit.zeroize_ok s.cfg GcmUnit.reset
  · rw [hgcm]
    exact h

end Sys2Proof.Machine
end

section
/-! The end of a command: its error or its effect, and STATUS and RESULT (R36, R37). -/

namespace Sys2Proof.Machine

/-- A failing check of a command is raised (R405, R406). -/
theorem raises_of_check {i : Instr} {s : State} {c : Cause} (h : commandCheck i s = some c) : raises i s c := by
  rw [raises, exec_eq_command, h, command_some]

/-- A command that passes its checks has its effect (R406). -/
theorem exec_of_passed {i : Instr} {s : State} (h : commandCheck i s = none) :
    exec i s = .next (commandEffect i s) := by
  rw [exec_eq_command, h, command_none]

/-- VOK at the end of a command that passes its checks (R36). -/
def endVok : Instr → State → Bool
  | .gcmVerify base offset tagLen, s => gcmVerdict base offset tagLen s
  | _, _ => false

/-- RESULT at the end of a command that passes its checks (R37). -/
def endResult : Instr → State → Word
  | .gcmVerify base offset tagLen, s => if gcmVerdict base offset tagLen s then 1 else 0
  | .jentNext, s => Config.jentWord s.draws
  | .jentAvail, s => if s.jent.available then 1 else 0
  | _, _ => 0

/-- Every effect ends the command: BUSY and the error fields are 0, and FAULT stays (R36). -/
theorem commandEffect_status (i : Instr) (s : State) : (commandEffect i s).status = s.status.ended (endVok i s) := by
  cases i with
  | sysSetpar => simp [commandEffect, finish_eq, endVok]
  | _ => rfl

theorem commandEffect_err (i : Instr) (s : State) : (commandEffect i s).status.err = false := by
  rw [commandEffect_status]
  rfl

theorem commandEffect_result (i : Instr) (s : State) : (commandEffect i s).result = endResult i s := by
  cases i <;> rfl

/-- VOK is set by GCM.VERIFY only, and RESULT is 1 then (R36, R404). -/
theorem endVok_true {i : Instr} {s : State} (h : endVok i s = true) :
    (∃ b o n, i = .gcmVerify b o n) ∧ endResult i s = 1 := by
  cases i with
  | gcmVerify b o n => exact ⟨⟨b, o, n, rfl⟩, if_pos h⟩
  | _ => simp [endVok] at h

/-- Only three commands leave a RESULT other than 0 (R37). -/
theorem endResult_ne_zero {i : Instr} {s : State} (h : endResult i s ≠ 0) :
    (∃ b o n, i = .gcmVerify b o n ∧ endVok i s = true) ∨ i = .jentNext ∨
      (i = .jentAvail ∧ endResult i s = 1 ∧ s.jent.available = true) := by
  cases i with
  | gcmVerify b o n =>
    refine .inl ⟨b, o, n, rfl, ?_⟩
    by_contra hno
    exact h (if_neg hno)
  | jentNext => exact .inr (.inl rfl)
  | jentAvail =>
    have havail : s.jent.available = true := by
      by_contra hno
      exact h (if_neg hno)
    exact .inr (.inr ⟨rfl, if_pos havail, havail⟩)
  | _ => exact absurd rfl h

/-- Settles O18: a command raises, with RESULT 0, or ends as its effect does. -/
theorem successfulEnd : Obligations.SuccessfulEnd := by
  intro i s t h
  rcases exec_cases h with ⟨c, -, rfl⟩ | ⟨-, rfl⟩
  · exact ⟨fun _ => rfl, nofun⟩
  · rw [commandEffect_status, commandEffect_result]
    exact ⟨nofun, fun _ => ⟨rfl, endVok_true, endResult_ne_zero⟩⟩

end Sys2Proof.Machine
end

section
/-! The replay guard of unit GCM (R51). -/

namespace Sys2Proof.Machine

/-- The two units hold the same guard. -/
def GcmUnit.sameGuard (u v : GcmUnit) : Prop :=
  v.guardValid = u.guardValid ∧ v.guardKey = u.guardKey ∧ v.guardN = u.guardN

theorem GcmUnit.sameGuard_rfl (u : GcmUnit) : u.sameGuard u := ⟨rfl, rfl, rfl⟩

/-- An error keeps the guard: the zeroizing of R410 is the one without the guard (R65). -/
theorem raiseError_sameGuard (u : UnitId) (c : Cause) (s : State) : s.gcm.sameGuard (raiseError u c s).gcm := by
  rcases raiseError_gcm u c s with h | h <;> rw [h]
  · exact s.gcm.sameGuard_rfl
  · exact ⟨rfl, rfl, rfl⟩

theorem setPar_sameGuard (target : Byte) (par : Par) (s : State) : s.gcm.sameGuard (setPar target par s).gcm := by
  unfold setPar
  split_ifs <;> exact ⟨rfl, rfl, rfl⟩

/-- The commands of the other units keep the guard, but SYS.RESET (R51). -/
theorem commandEffect_sameGuard {i : Instr} (hgcm : i.unit ≠ .gcm) (hreset : i ≠ .sysReset) (s : State) :
    s.gcm.sameGuard (commandEffect i s).gcm := by
  by_cases hsys : i.unit = .sys
  · cases i with
    | sysNop => exact s.gcm.sameGuard_rfl
    | sysReset => exact absurd rfl hreset
    | sysSetpar => exact setPar_sameGuard _ _ s
    | _ => simp [Instr.unit] at hsys
  · rw [commandEffect_gcm hsys hgcm]
    exact s.gcm.sameGuard_rfl

/-- `AutoReinit` keeps the key, advances the nonce, and arms the guard with the new pair (R51, R247). -/
theorem GcmUnit.autoReinit_guard (u : GcmUnit) :
    u.autoReinit.guardValid = true ∧ u.autoReinit.guardKey = u.key ∧ u.autoReinit.guardN = incNonce u.N ∧
      u.autoReinit.key = u.key ∧ u.autoReinit.N = incNonce u.N := by
  unfold GcmUnit.autoReinit
  split_ifs <;> exact ⟨rfl, rfl, rfl, rfl, rfl⟩

/-- The first tag of a session with auto-increment starts the next session (R248). -/
theorem GcmUnit.takeTag_of_autoInc {u : GcmUnit} (hp : u.phase ≠ .finalized) (hauto : u.autoInc = true) :
    u.takeTag.1 = u.calcTag.autoReinit := by
  simp [GcmUnit.takeTag, hp, hauto]

/-- A tag that starts no new session keeps the guard (R51, R248). -/
theorem GcmUnit.takeTag_sameGuard {u : GcmUnit} (h : u.phase = .finalized ∨ u.autoInc = false) :
    u.sameGuard u.takeTag.1 := by
  unfold GcmUnit.takeTag
  split_ifs with hp
  · exact u.sameGuard_rfl
  · have hauto : u.autoInc = false := h.resolve_left hp
    simp only [GcmUnit.calcTag_autoInc, hauto, Bool.false_eq_true, if_false]
    exact ⟨rfl, rfl, rfl⟩

/-- Unit GCM after GCM.FINAL and after GCM.VERIFY: a tag has been taken (R248, R250). -/
theorem commandEffect_gcm_of_tag {i : Instr} (h : ∃ b o n, i = .gcmFinal b o n ∨ i = .gcmVerify b o n) (s : State) :
    (commandEffect i s).gcm = s.gcm.takeTag.1 := by
  obtain ⟨b, o, n, rfl | rfl⟩ := h <;> rfl

/-- Settles O22: an error keeps the guard, and of the effects only those of GCM.INIT, of a tag with auto-increment, of
GCM.DESTROY and of SYS.RESET change it. -/
theorem guardSurvives : Obligations.GuardSurvives := by
  intro i s t h
  rcases exec_cases h with ⟨c, hc, rfl⟩ | ⟨-, rfl⟩
  · have herr : ¬ (raiseError i.unit c s).status.err = false := nofun
    refine ⟨fun _ => raiseError_sameGuard _ _ _, fun _ _ _ _ _ _ h => absurd h herr, fun _ h => absurd h herr, ?_⟩
    rintro (rfl | rfl) <;> simp [Instr.causes] at hc
  · refine ⟨?_, ?_, fun htag _ => ?_, ?_⟩
    · rintro (herr | ⟨hgcm, hreset⟩ | ⟨a, n, rfl⟩ | ⟨a, b, n, rfl⟩)
      · simp [commandEffect_err] at herr
      · exact commandEffect_sameGuard hgcm hreset s
      · exact ⟨rfl, rfl, rfl⟩
      · exact ⟨rfl, rfl, rfl⟩
    · rintro e a k kc n rfl -
      exact ⟨rfl, rfl, rfl⟩
    · rw [commandEffect_gcm_of_tag htag]
      refine ⟨fun hp hauto => ?_, GcmUnit.takeTag_sameGuard⟩
      rw [GcmUnit.takeTag_of_autoInc hp hauto]
      exact s.gcm.calcTag.autoReinit_guard
    · rintro (rfl | rfl) <;> exact ⟨rfl, rfl, rfl⟩

end Sys2Proof.Machine
end

section
/-! STATUS and RESULT in every step, and the host that keeps its protocol (R36, R37, R450). -/

namespace Sys2Proof.Machine

/-! ### STATUS and RESULT stay coherent -/

theorem exec_coherent {i : Instr} {s t : State} (h : exec i s = .next t) : t.status.coherent t.result := by
  rcases exec_cases h with ⟨c, hc, rfl⟩ | ⟨-, rfl⟩
  · exact s.status.raised_coherent i.unit (causes_subset_allCauses i hc)
  · rw [commandEffect_status, commandEffect_result]
    exact s.status.ended_coherent fun hvok => (endVok_true hvok).2

/-- A command or a decoding error leaves STATUS and RESULT coherent, whatever they were (R405, R411). -/
theorem sequencerStep_coherent {s t : State} (h : sequencerStep s = .next t) : t.status.coherent t.result := by
  obtain ⟨r, hr, rfl⟩ := sequencerStep_next h
  rw [report_status, report_result]
  rcases runCommand_next hr with ⟨i, -, hx⟩ | ⟨e, -, rfl⟩
  · exact exec_coherent hx
  · exact s.status.raised_coherent .sys (decodeCause_mem_allCauses e)

theorem hardReset_coherent (s : State) : (hardReset s).status.coherent (hardReset s).result := Status.reset_coherent

/-- FAULT is no part of the coherence. -/
theorem setFault_coherent {s : State} (h : s.status.coherent s.result) :
    (setFault s).status.coherent (setFault s).result := h

theorem hostMove_coherent {m : HostMove} {s t : State} (h : s.status.coherent s.result)
    (hm : hostMove m s = .next t) : t.status.coherent t.result := by
  rcases hostMove_next hm with ⟨-, rfl⟩ | ⟨r, rfl⟩ | ⟨offset, v, rfl⟩ | ⟨a, v, rfl⟩
  · exact hardReset_coherent s
  · exact h
  · rcases regWrite_cases offset v s with hw | hw | hw | hw | hw <;> rw [hw]
    · exact Status.issued_coherent s.status.fault
    all_goals exact h
  · exact h

theorem earlyMove_coherent {m : HostMove} {s t : State} (h : s.status.coherent s.result)
    (hm : earlyMove m s = .next t) : t.status.coherent t.result := by
  rcases earlyMove_next hm with ⟨-, rfl⟩ | ⟨r, rfl⟩ | ⟨offset, rfl⟩ | ⟨r, n, rfl⟩ | ⟨mem, n, rfl⟩
  · exact hardReset_coherent s
  · exact h
  · rcases regWriteBusy_cases offset s with hw | hw <;> rw [hw]
    · exact setFault_coherent h
    · exact h
  · exact setFault_coherent h
  · exact setFault_coherent h

theorem step_coherent {s t : State} (h : s.status.coherent s.result) (hs : step s = .next t) :
    t.status.coherent t.result := by
  rcases step_next hs with ⟨-, rest, -, rfl⟩ | ⟨-, -, m, rest, -, hm⟩ | ⟨-, -, m, rest, -, hm⟩ | ⟨-, hq⟩ | ⟨-, rfl⟩
  · exact hardReset_coherent _
  · exact earlyMove_coherent (s := { s with inbox := rest }) h hm
  · exact hostMove_coherent (s := { s with inbox := rest }) h hm
  · exact sequencerStep_coherent hq
  · exact h

/-! ### The protocol (R450) -/

/-- The event that a step takes is the next one of the host's list, and breaks in on a command only when it is early
(log 7). -/
theorem nextEvent_inbox {s : State} {m : HostMove} {rest : List HostEvent} (h : s.nextEvent = some (m, rest)) :
    ∃ e, s.inbox = ⟨m, e⟩ :: rest ∧ (s.status.busy = true → s.status.fault = false → e = true) := by
  unfold State.nextEvent at h
  split at h
  · cases h
  · rename_i ev tail hin
    split_ifs at h with hnow
    obtain ⟨rfl, rfl⟩ : ev.move = m ∧ tail = rest := by simpa using h
    exact ⟨ev.early, hin, fun hb hf => by simpa [hb, hf] using hnow⟩

/-- A host that keeps the protocol makes no move while BUSY is 1. -/
theorem nextEvent_of_protocolKept {s : State} (hk : protocolKept s) (hb : s.status.busy = true)
    (hf : s.status.fault = false) : s.nextEvent = none := by
  cases hn : s.nextEvent with
  | none => rfl
  | some ev =>
    obtain ⟨e, hin, hearly⟩ := nextEvent_inbox hn
    have hlate := hk _ (hin ▸ List.mem_cons_self)
    simp [hearly hb hf] at hlate

/-- A move of the host while BUSY is 0 adds no move to the host's list and sets no FAULT (R450). -/
theorem hostMove_keepsProtocol {m : HostMove} {s t : State} (hf : s.status.fault = false)
    (hm : hostMove m s = .next t) : t.inbox = s.inbox ∧ t.status.fault = false := by
  rcases hostMove_next hm with ⟨-, rfl⟩ | ⟨r, rfl⟩ | ⟨offset, v, rfl⟩ | ⟨a, v, rfl⟩
  · exact ⟨rfl, rfl⟩
  · exact ⟨rfl, hf⟩
  · rcases regWrite_cases offset v s with hw | hw | hw | hw | hw <;> rw [hw] <;> exact ⟨rfl, hf⟩
  · exact ⟨rfl, hf⟩

/-- A command, or a decoding error, leaves the host's list and FAULT alone (R36, R405). -/
theorem sequencerStep_keepsProtocol {s t : State} (h : sequencerStep s = .next t) :
    t.inbox = s.inbox ∧ t.status.fault = s.status.fault := by
  obtain ⟨r, hr, rfl⟩ := sequencerStep_next h
  rcases runCommand_next hr with ⟨i, -, hx⟩ | ⟨e, -, rfl⟩
  · obtain ⟨-, ⟨-, -, -, -, -, hinbox, -⟩, hfault⟩ := exec_frame hx
    exact ⟨hinbox, hfault⟩
  · exact ⟨rfl, rfl⟩

/-- Settles O29: each kind of step of `step_next` writes STATUS and RESULT together, and none sets FAULT but the early
moves, which a host that keeps the protocol does not make. -/
theorem stepKeepsStatus : Obligations.StepKeepsStatus := by
  refine ⟨fun s t h hs => step_coherent h hs, fun s t hk hf hs => ?_⟩
  rcases step_next hs with ⟨hfault, -⟩ | ⟨-, hb, m, rest, he, -⟩ | ⟨-, -, m, rest, he, hm⟩ | ⟨-, hq⟩ | ⟨-, rfl⟩
  · simp [hf] at hfault
  · simp [nextEvent_of_protocolKept hk hb hf] at he
  · obtain ⟨e, hin, -⟩ := nextEvent_inbox he
    obtain ⟨hinbox, hfault⟩ : t.inbox = rest ∧ t.status.fault = false :=
      hostMove_keepsProtocol (s := { s with inbox := rest }) hf hm
    exact ⟨fun ev hev => hk ev (hin ▸ List.mem_cons_of_mem _ (hinbox ▸ hev)), hfault⟩
  · obtain ⟨hinbox, hfault⟩ := sequencerStep_keepsProtocol hq
    exact ⟨fun ev hev => hk ev (hinbox ▸ hev), hfault.trans hf⟩
  · exact ⟨hk, hf⟩

end Sys2Proof.Machine
end

section
/-! The registers: the map of R33, the descriptor registers (R38), PHASES (R39) and the profile registers (R40). -/

namespace Sys2Proof.Machine

/-! ### The register map (R33) -/

/-- An offset that the table of R33 does not list reads 0. -/
theorem regRead_unlisted (s : State) {offset : Nat}
    (h : offset ∉ [0x00, 0x04, 0x08, 0x0C, 0x10, 0x14, 0x18, 0x20, 0x24, 0x28, 0x2C, 0x30, 0x34, 0x38, 0x3C]) :
    regRead s offset = 0 := by
  unfold regRead
  split <;> simp at h ⊢

theorem statusWord_reset : statusWord Status.reset = 0 := by decide

theorem phasesWord_resetWith (p : Params) (m : Memory) (j : JentUnit) : phasesWord (State.resetWith p m j) = 0 := by
  change 0#4 ++ 0#4 ++ 0#4 ++ 0#4 ++ 0#4 ++ 0#4 ++ 0#4 ++ 0#4 = 0#32
  decide

theorem pardegWord_resetWith (p : Params) (m : Memory) (j : JentUnit) : pardegWord (State.resetWith p m j) = 0 := by
  change 0#5 ++ bit false ++ bit false ++ bit false ++ 0#8 ++ 0#8 ++ 0#8 = 0#32
  decide

/-- From STATUS on every register is 0 after reset (R33, R64). -/
theorem regRead_resetWith (p : Params) (m : Memory) (j : JentUnit) {offset : Nat} (h : 0x10 ≤ offset) :
    regRead (State.resetWith p m j) offset = 0 := by
  by_cases hlisted : offset ∈ [0x10, 0x18, 0x30, 0x14, 0x20, 0x24, 0x28, 0x2C, 0x34, 0x38, 0x3C]
  · simp only [List.mem_cons, List.not_mem_nil, or_false] at hlisted
    rcases hlisted with rfl | rfl | rfl | hfield
    · exact statusWord_reset
    · exact phasesWord_resetWith p m j
    · exact pardegWord_resetWith p m j
    · rcases hfield with rfl | rfl | rfl | rfl | rfl | rfl | rfl | rfl <;> rfl
  · refine regRead_unlisted _ ?_
    simp only [List.mem_cons, List.not_mem_nil, or_false] at hlisted ⊢
    omega

theorem regWrite_ignored {offset : Nat} (h : offset ∉ [0x20, 0x24, 0x28, 0x2C]) (v : Word) (s : State) :
    regWrite offset v s = s := by
  unfold regWrite
  split <;> simp at h ⊢

theorem regWriteBusy_ignored {offset : Nat} (h : offset ∉ [0x20, 0x24, 0x28, 0x2C]) (s : State) :
    regWriteBusy offset s = s := by
  rw [regWriteBusy, if_neg (by simpa using h)]

theorem regWriteBusy_desc {offset : Nat} (h : offset ∈ [0x20, 0x24, 0x28, 0x2C]) (s : State) :
    regWriteBusy offset s = setFault s := by
  rw [regWriteBusy, if_pos (by simpa using h)]

/-- A register write of the host at a word offset of the space: while BUSY is 0 and while BUSY is 1 (R33, R90). -/
theorem step_writeReg {s : State} {offset : Nat} {v : Word} {e : Bool} {rest : List HostEvent}
    (hform : offset % 4 = 0) (hspace : offset < 256) (he : s.status.busy = true → e = true)
    (hf : s.status.fault = false) (hi : s.inbox = ⟨.writeReg 4 offset v, e⟩ :: rest) :
    step s = .next (if s.status.busy then regWriteBusy offset { s with inbox := rest }
      else regWrite offset v { s with inbox := rest }) := by
  rw [step_of_move he hf hi]
  split_ifs <;> exact regAccess_of_form hform hspace _

/-- Settles O9. -/
theorem registerMap : Obligations.RegisterMap := by
  refine ⟨fun s => ⟨rfl, rfl, rfl, rfl, rfl, rfl, rfl, rfl, rfl, rfl, rfl, rfl, rfl, rfl, rfl⟩,
    fun s offset _ hoffset => regRead_unlisted s ?_, fun s offset v h => regWrite_ignored h v s,
    fun s offset v e rest hform hspace h he hf hi => ?_, fun p m j offset h => regRead_resetWith p m j h⟩
  · simp only [List.mem_cons, List.not_mem_nil, or_false]
    omega
  · rw [step_writeReg hform hspace he hf hi, regWrite_ignored h, regWriteBusy_ignored h, ite_self]

/-! ### The descriptor registers (R38) -/

/-- Settles O8: the writes are cases of `step_writeReg`, and the descriptor is in the frame of every command. -/
theorem descriptorWrites : Obligations.DescriptorWrites := by
  refine ⟨fun s v e rest offset hb hf hi => ?_, fun s v rest offset hb hf hi hdesc => ?_, fun i s t h => ?_⟩
  · have hstep : offset % 4 = 0 → offset < 256 → step s = .next (regWrite offset v { s with inbox := rest }) :=
      fun hform hspace => by simpa [hb] using step_writeReg hform hspace (by simp [hb]) hf hi
    refine ⟨?_, ?_, ?_, ?_⟩ <;> rintro rfl
    · exact hstep rfl (by decide)
    · exact hstep rfl (by decide)
    · exact hstep rfl (by decide)
    · exact ⟨_, hstep rfl (by decide), rfl, rfl⟩
  · obtain ⟨hform, hspace⟩ : offset % 4 = 0 ∧ offset < 256 := by
      simp only [List.mem_cons, List.not_mem_nil, or_false] at hdesc
      omega
    rw [step_writeReg hform hspace (fun _ => rfl) hf hi, if_pos hb, regWriteBusy_desc hdesc]
    rfl
  · obtain ⟨-, ⟨-, h0, h1, h2, h3, -⟩, -⟩ := exec_frame h
    simp only [State.desc, h0, h1, h2, h3]

/-! ### PHASES (R39) -/

theorem Phase.code_eq_four (p : Phase) : p.code = 4 ↔ p = .finalized := by
  cases p <;> decide

theorem phasesWord_gcm (s : State) : (phasesWord s).extractLsb' 12 4 = s.gcm.phase.code := by
  simp (disch := decide) only [phasesWord, BitVec.extractLsb'_append_eq_of_le]
  exact BitVec.extractLsb'_append_eq_right

/-- Settles O13: each nibble is what is left of the word when the nibbles below it are cut off. -/
theorem phasesNibbles : Obligations.PhasesNibbles := by
  intro s
  refine ⟨?_, ?_, ?_, phasesWord_gcm s, ?_, ?_, ?_, ?_, ?_⟩
  case refine_8 =>
    rw [phasesWord_gcm]
    exact Phase.code_eq_four _
  case refine_7 =>
    simp (disch := decide) only [phasesWord, BitVec.extractLsb'_append_eq_of_le]
    exact BitVec.extractLsb'_eq_self
  all_goals
    simp (disch := decide) only [phasesWord, BitVec.extractLsb'_append_eq_of_le]
    exact BitVec.extractLsb'_append_eq_right

/-! ### The profiles (R40) -/

theorem pardegWord_degrees (s : State) :
    (pardegWord s).extractLsb' 0 8 = s.ctr.par.degree ∧ (pardegWord s).extractLsb' 8 8 = s.gcm.par.degree ∧
      (pardegWord s).extractLsb' 16 8 = s.ss.par.degree := by
  refine ⟨?_, ?_, ?_⟩
  all_goals
    simp (disch := decide) only [pardegWord, BitVec.extractLsb'_append_eq_of_le]
    exact BitVec.extractLsb'_append_eq_right

theorem pardegWord_enables (s : State) :
    (pardegWord s).getLsbD 24 = s.ctr.par.en ∧ (pardegWord s).getLsbD 25 = s.gcm.par.en ∧
      (pardegWord s).getLsbD 26 = s.ss.par.en ∧ (pardegWord s).extractLsb' 27 5 = 0 := by
  refine ⟨?_, ?_, ?_, ?_⟩
  case refine_4 =>
    simp (disch := decide) only [pardegWord, BitVec.extractLsb'_append_eq_of_le]
    exact BitVec.extractLsb'_eq_self
  all_goals
    simp only [pardegWord, bit, BitVec.getLsbD_append]
    simp

/-- The three profiles are the same in both states. -/
def sameProfiles (s t : State) : Prop :=
  t.ctr.par = s.ctr.par ∧ t.gcm.par = s.gcm.par ∧ t.ss.par = s.ss.par

theorem raiseError_sameProfiles (u : UnitId) (c : Cause) (s : State) : sameProfiles s (raiseError u c s) := by
  cases u with
  | gcm =>
    obtain ⟨-, hctr, -, -, hss, -⟩ := raiseError_other .gcm c s
    refine ⟨by rw [hctr nofun], ?_, by rw [hss nofun]⟩
    rcases raiseError_gcm .gcm c s with h | h <;> rw [h]
    rfl
  | _ => exact ⟨rfl, rfl, rfl⟩

/-- Every command but SYS.RESET and SYS.SETPAR keeps the profiles: a new session, a new tag and a DESTROY keep that of
their unit (R40, R65). -/
theorem commandEffect_sameProfiles {i : Instr} (hreset : i ≠ .sysReset) (hsetpar : ∀ u e d b, i ≠ .sysSetpar u e d b)
    (s : State) : sameProfiles s (commandEffect i s) := by
  cases i with
  | sysReset => exact absurd rfl hreset
  | sysSetpar u e d b => exact absurd rfl (hsetpar u e d b)
  | gcmFinal | gcmVerify => exact ⟨rfl, s.gcm.takeTag_par, rfl⟩
  | _ => exact ⟨rfl, rfl, rfl⟩

theorem exec_sameProfiles {i : Instr} {s t : State} (h : exec i s = .next t) :
    sameProfiles s t ∨ i = .sysReset ∨ ∃ u e d b, i = .sysSetpar u e d b := by
  rcases exec_cases h with ⟨c, -, rfl⟩ | ⟨-, rfl⟩
  · exact .inl (raiseError_sameProfiles i.unit c s)
  · by_cases hreset : i = .sysReset
    · exact .inr (.inl hreset)
    · by_cases hsetpar : ∃ u e d b, i = .sysSetpar u e d b
      · exact .inr (.inr hsetpar)
      · push Not at hsetpar
        exact .inl (commandEffect_sameProfiles hreset hsetpar s)

/-- Settles O14: the fields of the word, and the commands among the steps of `step_units`. -/
theorem profileRegisters : Obligations.ProfileRegisters := by
  refine ⟨fun s => ?_, fun s t h => ?_⟩
  · obtain ⟨hctr, hgcm, hss⟩ := pardegWord_degrees s
    obtain ⟨ectr, egcm, ess, hrest⟩ := pardegWord_enables s
    exact ⟨hctr, hgcm, hss, ectr, egcm, ess, hrest, rfl, rfl, rfl⟩
  · rcases step_units h with ⟨hdue, i, r, hi, hx, rfl⟩ | ⟨rest, he, -⟩ | ⟨-, hctr, hgcm, -, hss, -⟩
    · rcases exec_sameProfiles hx with hsame | rfl | ⟨u, e, d, b, rfl⟩
      · exact .inl hsame
      · exact .inr (.inl ⟨hdue, hi⟩)
      · exact .inr (.inr (.inl ⟨hdue, u, e, d, b, hi⟩))
    · exact .inr (.inr (.inr ⟨rest, he⟩))
    · exact .inl ⟨by rw [hctr], by rw [hgcm], by rw [hss]⟩

end Sys2Proof.Machine
end

section
/-! Unit DRBG: DRBG.INIT and DRBG.RESET (R361 to R367). -/

namespace Sys2Proof.Machine

/-! ### The checks, in their order -/

theorem drbgInitCheck_kind (seed len : Word) (s : State) : drbgInitCheck 3 seed len s = some .drbgKind := rfl

theorem drbgInitCheck_range {kind : BitVec 2} {seed len : Word} {s : State} (hkind : kind ≠ 3)
    (hr : ¬ inDmem s seed.toNat len.toNat) : drbgInitCheck kind seed len s = some .srcRange := by
  have hrange : inRange s.cfg seed.toNat len.toNat = false :=
    Bool.eq_false_iff.mpr fun h => hr ((inRange_iff _ _ _).mp h)
  rw [drbgInitCheck, if_neg hkind]
  simp [hrange]

/-- A legal kind and a seed in DMEM: the seed must have the least length of its kind (R361, R362). -/
theorem drbgInitCheck_seed {kind : BitVec 2} {seed len : Word} {s : State} (hkind : kind ≠ 3)
    (hr : inDmem s seed.toNat len.toNat) :
    drbgInitCheck kind seed len s = if len.toNat < minSeed s.cfg kind then some .seedLen else none := by
  have hrange : inRange s.cfg seed.toNat len.toNat = true := (inRange_iff _ _ _).mpr hr
  rw [drbgInitCheck, if_neg hkind]
  simp [hrange]

theorem drbgResetCheck_ready {s : State} (hp : s.drbg.phase = .ready) :
    drbgResetCheck s = if s.cfg.hasJent = false ∨ s.jent.available = false then some .jentUnavailable else none := by
  simp [drbgResetCheck, hp]

/-! ### The effects -/

/-- `DrbgFill` leaves the unit at the start of the stream of its seed (R367, R368). -/
theorem DrbgUnit.fill_onStream (u : DrbgUnit) (size : Nat) :
    (u.fill size).onStream size (Config.drbgSeed u.kind u.seed) :=
  ⟨rfl, rfl, Nat.zero_le size⟩

theorem DrbgUnit.init_onStream (p : Params) (kind : BitVec 2) (seed : Bytes) :
    (DrbgUnit.init p kind seed).onStream p.drbgBuf (Config.drbgSeed kind seed) :=
  ⟨rfl, rfl, Nat.zero_le p.drbgBuf⟩

/-- An error of unit DRBG zeroizes the unit (R410). -/
theorem raiseError_drbg (c : Cause) (s : State) :
    raiseError .drbg c s = { s with drbg := DrbgUnit.reset s.cfg, result := 0, status := s.status.raised .drbg c } :=
  rfl

/-- Settles O59: the checks in their order, and the two effects, which both fill the buffer from the new seed. -/
theorem drbgInitAndReset : Obligations.DrbgInitAndReset := by
  refine ⟨fun kind seed len s hkind hr => ⟨fun hlen => ?_, fun hlen => ?_⟩, fun kind seed len s hkind hr => ?_,
    fun seed len s => ?_, fun s hp => ⟨fun hjent havail => ?_, fun hunavailable => ?_⟩⟩
  · have hpass : commandCheck (.drbgInit kind seed len) s = none :=
      (drbgInitCheck_seed hkind (.inr hr)).trans (if_neg (Nat.not_lt.mpr hlen))
    exact ⟨_, exec_of_passed hpass, rfl, rfl, rfl, rfl, rfl, DrbgUnit.init_onStream _ _ _⟩
  · rw [← raiseError_drbg]
    exact raises_of_check ((drbgInitCheck_seed hkind (.inr hr)).trans (if_pos hlen))
  · exact raises_of_check (drbgInitCheck_range hkind hr)
  · rw [← raiseError_drbg]
    exact raises_of_check (drbgInitCheck_kind seed len s)
  · have hpass : commandCheck .drbgReset s = none :=
      (drbgResetCheck_ready hp).trans (if_neg (by simp [hjent, havail]))
    exact ⟨_, exec_of_passed hpass, rfl, hp, rfl, Nat.le_refl _, rfl, rfl, DrbgUnit.fill_onStream _ _⟩
  · rw [← raiseError_drbg]
    exact raises_of_check ((drbgResetCheck_ready hp).trans (if_pos hunavailable))

end Sys2Proof.Machine
end

section
/-! What a command stores in DMEM and what it reads there: every step keeps DMEM in canonical form, and a command
touches the ranges of its descriptor only (R80, R91). -/

namespace Sys2Proof.Machine

/-! ### The one write of a command -/

/-- The destination range of a command: address and length; the empty range for a command that names none (R91). -/
def destination (i : Instr) : Nat × Nat := i.writes.getD (0, 0)

/-- The bytes that a command stores when it passes its checks; none for a command that names no destination. -/
def storedBytes : Instr → State → Bytes
  | .ghFinal aadLen msgLen _, s => blockBytes (s.gh.final aadLen.toNat msgLen.toNat).X
  | .ghRead _, s => blockBytes s.gh.X
  | .ctrXform src _ len, s => (ctrStream s.ctr.key s.ctr.c (operand s src len)).1
  | .gcmXform src _ len, s => (s.gcm.xform (operand s src len)).2
  | .gcmFinal _ _ tagLen, s => (blockBytes s.gcm.takeTag.2).take tagLen.toNat
  | .dgFinal _, s => s.dg.digest
  | .dgCompute src _ len, s => (s.dg.update (operand s src len)).digest
  | .ssXform src _ len, s => (ssStream s.ss.rounds s.ss.s (operand s src len)).1
  | .jentGet _ len, s => jentBytes s len.toNat
  | .drbgGen _ len, s => (s.drbg.generate s.cfg.drbgBuf len.toNat).1
  | _, _ => []

/-- A command that passes its checks writes DMEM once, at its destination. -/
theorem commandEffect_dmem (i : Instr) (s : State) :
    (commandEffect i s).dmem = s.dmem.writeBytes (destination i).1 (storedBytes i s) := by
  cases i with
  | sysSetpar => exact setPar_dmem _ _ s
  | _ => rfl

/-- The stored bytes fit the destination. -/
theorem storedBytes_length_le (i : Instr) (s : State) : (storedBytes i s).length ≤ (destination i).2 := by
  cases i with
  | ghFinal | ghRead => exact Nat.le_of_eq (blockBytes_length _)
  | ctrXform | gcmXform => exact (ctrStream_length_le _ _ _).trans_eq (operand_length _ _ _)
  | gcmFinal => exact List.length_take_le _ _
  | dgFinal | dgCompute => exact DgUnit.digest_length_le _
  | ssXform => exact (ssStream_length_le _ _ _).trans_eq (operand_length _ _ _)
  | jentGet => exact Nat.le_of_eq (drawBytes_length _ _)
  | drbgGen => exact drbgLoop_length_le _ _ _ _
  | _ => exact Nat.le_refl 0

theorem storedBytes_of_writes_none {i : Instr} (h : i.writes = none) (s : State) : storedBytes i s = [] := by
  have hlen := storedBytes_length_le i s
  rw [destination, h] at hlen
  exact List.length_eq_zero_iff.mp (Nat.le_zero.mp hlen)

/-- A command that passes its checks has its destination in DMEM (R83). -/
theorem inRange_destination {i : Instr} {s : State} (h : commandCheck i s = none) :
    inRange s.cfg (destination i).1 (destination i).2 = true := by
  cases i with
  | ghFinal | ghRead => exact inRange_of_check h
  | ctrXform => exact (ctrXformCheck_none h).2
  | gcmXform => exact (gcmXformCheck_none h).2
  | gcmFinal => exact (gcmFinalCheck_none h).2
  | dgFinal => exact (dgFinalCheck_none h).2
  | dgCompute => exact (dgComputeCheck_none h).2
  | ssXform => exact (ssXformCheck_none h).2
  | jentGet => exact jentGetCheck_none h
  | drbgGen => exact (drbgGenCheck_none h).2
  | _ => rfl

/-- DMEM after a command: as before an error, and else with the stored bytes at the destination (R405, R406). -/
theorem exec_dmem {i : Instr} {s t : State} (h : exec i s = .next t) :
    t.dmem = s.dmem ∨
      (commandCheck i s = none ∧ t.dmem = s.dmem.writeBytes (destination i).1 (storedBytes i s)) := by
  rcases exec_cases h with ⟨c, -, rfl⟩ | ⟨hc, rfl⟩
  · exact .inl (raiseError_dmem _ _ _)
  · exact .inr ⟨hc, commandEffect_dmem i s⟩

/-! ### DMEM stays in canonical form (R80) -/

/-- `memoryOk` is about DMEM and the size of the build only. -/
theorem memoryOk_congr {s t : State} (h : memoryOk s) (hcfg : t.cfg = s.cfg) (hdmem : t.dmem = s.dmem) :
    memoryOk t := by
  rwa [memoryOk, hcfg, hdmem]

/-- The moves that the host has still to make do not touch DMEM. -/
theorem memoryOk_setInbox {s : State} (h : memoryOk s) (rest : List HostEvent) :
    memoryOk { s with inbox := rest } := h

theorem exec_memoryOk {i : Instr} {s t : State} (h : memoryOk s) (hs : exec i s = .next t) : memoryOk t := by
  obtain ⟨-, ⟨hcfg, -⟩, -⟩ := exec_frame hs
  rcases exec_dmem hs with hdmem | ⟨hc, hdmem⟩
  · exact memoryOk_congr h hcfg hdmem
  · exact memoryOk_congr (storeBytes_memoryOk h (inRange_destination hc) (storedBytes_length_le i s)) hcfg hdmem

theorem sequencerStep_memoryOk {s t : State} (h : memoryOk s) (hs : sequencerStep s = .next t) : memoryOk t := by
  obtain ⟨r, hr, rfl⟩ := sequencerStep_next hs
  rcases runCommand_next hr with ⟨i, -, hi⟩ | ⟨e, -, rfl⟩
  · exact memoryOk_congr (exec_memoryOk h hi) rfl rfl
  · exact memoryOk_congr h rfl rfl

theorem hardReset_memoryOk (s : State) : memoryOk (hardReset s) := freeDmem_ok s.cfg s.draws

theorem regWrite_dmem (offset : Nat) (v : Word) (s : State) : (regWrite offset v s).dmem = s.dmem := by
  rcases regWrite_cases offset v s with h | h | h | h | h <;> simp [h]

theorem regWriteBusy_dmem (offset : Nat) (s : State) : (regWriteBusy offset s).dmem = s.dmem := by
  rcases regWriteBusy_cases offset s with h | h <;> simp [h]

/-- A move of the host while BUSY is 0: only its DMEM write and a hardware reset touch DMEM (R450). -/
theorem hostMove_memoryOk {m : HostMove} {s t : State} (h : memoryOk s) (hm : hostMove m s = .next t) :
    memoryOk t := by
  cases m with
  | readReg width offset =>
    obtain ⟨rfl, -⟩ := regAccess_next hm
    exact h
  | writeReg width offset v =>
    obtain ⟨rfl, -⟩ := regAccess_next hm
    exact memoryOk_congr h (regWrite_cfg _ _ _) (regWrite_dmem _ _ _)
  | readDmem addr n =>
    obtain ⟨rfl, -⟩ := dmemAccess_next hm
    exact h
  | writeDmem addr bytes =>
    obtain ⟨rfl, hr⟩ := dmemAccess_next hm
    exact storeBytes_memoryOk h hr (Nat.le_refl _)
  | hardReset =>
    cases hm
    exact hardReset_memoryOk s

/-- A move of the host while BUSY is 1: a DMEM write leaves free bytes, in all of DMEM and nowhere else (R450). -/
theorem earlyMove_memoryOk {m : HostMove} {s t : State} (h : memoryOk s) (hm : earlyMove m s = .next t) :
    memoryOk t := by
  cases m with
  | readReg width offset =>
    obtain ⟨rfl, -⟩ := regAccess_next hm
    exact h
  | writeReg width offset v =>
    obtain ⟨rfl, -⟩ := regAccess_next hm
    exact memoryOk_congr h (regWriteBusy_cfg _ _) (regWriteBusy_dmem _ _)
  | readDmem addr n =>
    obtain ⟨rfl, -⟩ := dmemAccess_next hm
    exact h
  | writeDmem addr bytes =>
    obtain ⟨rfl, -⟩ := dmemAccess_next hm
    exact spoiltDmem_ok s.cfg s.draws
  | hardReset =>
    cases hm
    exact hardReset_memoryOk s

/-- Settles O28: each kind of step of `step_next` keeps DMEM in canonical form and inside its size. -/
theorem stepKeepsMemory : Obligations.StepKeepsMemory := by
  intro s t h hs
  rcases step_next hs with ⟨-, rest, -, rfl⟩ | ⟨-, -, m, rest, -, hm⟩ | ⟨-, -, m, rest, -, hm⟩ | ⟨-, hq⟩ | ⟨-, rfl⟩
  · exact hardReset_memoryOk _
  · exact earlyMove_memoryOk (memoryOk_setInbox h rest) hm
  · exact hostMove_memoryOk (memoryOk_setInbox h rest) hm
  · exact sequencerStep_memoryOk h hq
  · exact h

/-! ### The ranges of the descriptor (R91) -/

/-- Settles O20: the one write of a command starts at its destination and fits it. -/
theorem writesOnlyItsRange : Obligations.WritesOnlyItsRange := by
  intro i s t hwf hs
  rcases exec_dmem hs with hdmem | ⟨-, hdmem⟩
  · exact ⟨fun _ => hdmem, fun _ _ _ _ _ => by rw [hdmem]⟩
  · refine ⟨fun hnone => ?_, fun a n hwrites b hout => ?_⟩
    · rw [hdmem, storedBytes_of_writes_none hnone]
      rfl
    · have hfits := storedBytes_length_le i s
      rw [hdmem, Memory.readByte_writeBytes hwf]
      simp only [destination, hwrites, Option.getD_some] at hfits ⊢
      exact if_neg (by omega)

/-- The string of the source range of a command in the memory `m` (R82). -/
def sourceBytes (i : Instr) (m : Memory) : Bytes := m.readBytes i.reads.1 i.reads.2

/-- A memory that agrees on the source range of a command has the same source string. -/
theorem sourceBytes_congr {i : Instr} {m m' : Memory}
    (h : ∀ b, i.reads.1 ≤ b → b < i.reads.1 + i.reads.2 → m.readByte b = m'.readByte b) :
    sourceBytes i m = sourceBytes i m' :=
  Memory.readBytes_congr fun k hk => h _ (by omega) (by omega)

/-- The checks of a command read no byte of DMEM outside its source range. -/
theorem commandCheck_congr {i : Instr} {s : State} {m : Memory} (h : sourceBytes i m = sourceBytes i s.dmem) :
    commandCheck i { s with dmem := m } = commandCheck i s := by
  cases i with
  | ctrInit a n | gcmInit _ _ _ a n | dgInit _ a n | ssInit _ a n =>
    have hread : operand { s with dmem := m } a n = operand s a n := h
    simp only [commandCheck, ctrInitCheck, gcmInitCheck, dgInitCheck, ssInitCheck, hread]
  | _ => rfl

/-- The effect of a command reads no byte of DMEM outside its source range: it ends in the same state but for DMEM, and
stores the same bytes at the same address. -/
theorem commandEffect_congr {i : Instr} {s : State} {m : Memory} (h : sourceBytes i m = sourceBytes i s.dmem) :
    commandEffect i { s with dmem := m } =
      { commandEffect i s with dmem := m.writeBytes (destination i).1 (storedBytes i s) } := by
  cases i with
  | sysSetpar => simp only [commandEffect, setPar]; split_ifs <;> rfl
  | ghInit a =>
    have hread : m.readBytes a.toNat 16 = s.dmem.readBytes a.toNat 16 := h
    simp only [commandEffect, hread]
    rfl
  | gcmVerify b o n =>
    have hread : m.readBytes (tagAddress b o) n.toNat = s.dmem.readBytes (tagAddress b o) n.toNat := h
    simp only [commandEffect, gcmVerifyEffect, gcmVerdict, hread]
    rfl
  | ghUpdate a n | ghSegment a n | ctrInit a n | gcmInit _ _ _ a n | gcmAad a n | dgInit _ a n | dgUpdate a n
  | ssInit _ a n | drbgInit _ a n | ctrXform a _ n | gcmXform a _ n | ssXform a _ n | dgCompute a _ n =>
    have hread : operand { s with dmem := m } a n = operand s a n := h
    simp only [commandEffect, ctrXformEffect, gcmXformEffect, ssXformEffect, hread]
    rfl
  | _ => rfl

/-- An error neither reads nor writes DMEM (R405). -/
theorem raiseError_setDmem (u : UnitId) (c : Cause) (s : State) (m : Memory) :
    raiseError u c { s with dmem := m } = { raiseError u c s with dmem := m } := by
  cases u with
  | gcm => simp only [raiseError, unitEffect]; split_ifs <;> rfl
  | _ => rfl

/-- Settles O21: the checks and the effect of a command take the source string and nothing else from DMEM. -/
theorem readsOnlyItsRange : Obligations.ReadsOnlyItsRange := by
  intro i s m hagree
  have hsource : sourceBytes i m = sourceBytes i s.dmem := sourceBytes_congr hagree
  have hcheck := commandCheck_congr hsource
  cases hc : commandCheck i s with
  | some c =>
    refine ⟨raiseError i.unit c s, 0, [], raises_of_check hc, raiseError_dmem _ _ _, ?_⟩
    rw [raises_of_check (hcheck.trans hc), raiseError_setDmem]
    rfl
  | none =>
    refine ⟨commandEffect i s, _, _, exec_of_passed hc, commandEffect_dmem i s, ?_⟩
    rw [exec_of_passed (hcheck.trans hc), commandEffect_congr hsource]

end Sys2Proof.Machine
end

section
/-! The key container: its serialization and its parsing (R95, R96), and the three commands that take a key from one
(R212, R238, R333). -/

namespace Sys2Proof.Machine

/-! ### Pieces of a byte string -/

theorem slice_middle {a b : Bytes} {p q : Nat} (hp : a.length = p) (hq : p + b.length = q) (c : Bytes) :
    slice (a ++ b ++ c) p q = b := by
  subst hp hq
  simp [slice]

theorem slice_append_left {a : Bytes} {q : Nat} (hq : q ≤ a.length) (p : Nat) (b : Bytes) :
    slice (a ++ b) p q = slice a p q := by
  simp only [slice, List.drop_append, List.take_append, List.length_drop]
  rw [show q - p - (a.length - p) = 0 by omega, List.take_zero, List.append_nil]

theorem slice_append_right {a : Bytes} {p : Nat} (hp : a.length ≤ p) (b : Bytes) (q : Nat) :
    slice (a ++ b) p q = slice b (p - a.length) (q - a.length) := by
  simp only [slice, List.drop_append, List.drop_eq_nil_of_le hp, List.nil_append]
  congr 1
  omega

/-- Two pieces that meet. -/
theorem slice_append_slice (s : Bytes) {p q r : Nat} (hpq : p ≤ q) (hqr : q ≤ r) :
    slice s p q ++ slice s q r = slice s p r := by
  have hdrop : s.drop q = (s.drop p).drop (q - p) := by rw [List.drop_drop, Nat.add_sub_cancel' hpq]
  rw [slice, slice, slice, hdrop, ← List.take_add, show q - p + (r - q) = r - p by omega]

/-- A piece of `n` bytes inside a string. -/
theorem slice_length_add {s : Bytes} {p n : Nat} (h : p + n ≤ s.length) : (slice s p (p + n)).length = n := by
  rw [slice_length]
  omega

theorem slice_all (s : Bytes) : slice s 0 s.length = s := by simp [slice]

/-! ### Serializing, then parsing (R95) -/

/-- A 16-bit length is read back as it was written (R18, R95). -/
theorem leNat_leBytes_two {n : Nat} (h : n < 65536) : leNat (leBytes 2 n) = n := by
  rw [leNat_leBytes]
  exact Nat.mod_eq_of_lt h

theorem containerBytes_length (key nonce info : Bytes) :
    (containerBytes key nonce info).length = 6 + key.length + nonce.length + info.length := by
  simp [containerBytes]
  omega

/-- The length field `klen` of a serialized container. -/
theorem containerKlen_containerBytes {key : Bytes} (h : key.length < 65536) (nonce info : Bytes) :
    containerKlen (containerBytes key nonce info) = key.length := by
  have hslice : slice (containerBytes key nonce info) 0 2 = leBytes 2 key.length := by
    simp [containerBytes, slice]
  rw [containerKlen, hslice, leNat_leBytes_two h]

/-- The length field `nlen` of a serialized container. -/
theorem containerNlen_containerBytes {nonce : Bytes} (h : nonce.length < 65536) (key info : Bytes) :
    containerNlen (containerBytes key nonce info) = nonce.length := by
  have hslice : slice (containerBytes key nonce info) 2 4 = leBytes 2 nonce.length := by
    simp [containerBytes, slice]
  rw [containerNlen, hslice, leNat_leBytes_two h]

/-- The length field `ilen` of a serialized container. -/
theorem containerIlen_containerBytes {info : Bytes} (h : info.length < 65536) (key nonce : Bytes) :
    containerIlen (containerBytes key nonce info) = info.length := by
  have hslice : slice (containerBytes key nonce info) 4 6 = leBytes 2 info.length := by
    rw [containerBytes, List.append_assoc _ nonce, List.append_assoc _ key]
    exact slice_middle (by simp) (by simp) _
  rw [containerIlen, hslice, leNat_leBytes_two h]

/-- A serialized container has the length that it claims (R96). -/
theorem containerFits_containerBytes {key nonce info : Bytes} (hkey : key.length < 65536)
    (hnonce : nonce.length < 65536) (hinfo : info.length < 65536) :
    containerFits (containerBytes key nonce info) = true := by
  rw [containerFits, containerKlen_containerBytes hkey, containerNlen_containerBytes hnonce,
    containerIlen_containerBytes hinfo, containerBytes_length]
  simp
  omega

/-- A serialized container parses to its parts (R95). -/
theorem parseContainer_containerBytes {key nonce info : Bytes} (hkey : key.length < 65536)
    (hnonce : nonce.length < 65536) (hinfo : info.length < 65536) :
    parseContainer (containerBytes key nonce info) = ⟨key, nonce, info⟩ := by
  simp only [parseContainer, containerKlen_containerBytes hkey, containerNlen_containerBytes hnonce,
    containerIlen_containerBytes hinfo, KeyContainer.mk.injEq]
  refine ⟨?_, ?_, ?_⟩
  · rw [containerBytes, List.append_assoc _ nonce]
    exact slice_middle (by simp) rfl _
  · exact slice_middle (by simp; omega) rfl _
  · rw [← List.append_nil (containerBytes key nonce info)]
    exact slice_middle (by simp; omega) rfl _

/-! ### Parsing, then serializing (R96) -/

theorem containerFits_iff (v : Bytes) :
    containerFits v = true ↔ 6 ≤ v.length ∧ 6 + containerKlen v + containerNlen v + containerIlen v = v.length := by
  simp [containerFits]

/-- A length field of two bytes is read and written back (R18, R95). -/
theorem leBytes_leNat_two {s : Bytes} (h : s.length = 2) : leBytes 2 (leNat s) = s := by
  rw [← h, leBytes_leNat]

/-- A container that has the length it claims is the serialization of its parts (R95, R96). -/
theorem containerBytes_parseContainer {v : Bytes} (h : containerFits v = true) :
    containerBytes (parseContainer v).key (parseContainer v).nonce (parseContainer v).info = v := by
  obtain ⟨hsix, hsum⟩ := (containerFits_iff v).mp h
  have hkey : (parseContainer v).key.length = containerKlen v := slice_length_add (by omega)
  have hnonce : (parseContainer v).nonce.length = containerNlen v := slice_length_add (by omega)
  have hinfo : (parseContainer v).info.length = containerIlen v := slice_length_add (by omega)
  have hfield : ∀ p, p + 2 ≤ 6 → leBytes 2 (leNat (slice v p (p + 2))) = slice v p (p + 2) := fun p hp =>
    leBytes_leNat_two (slice_length_add (by omega))
  rw [containerBytes, hkey, hnonce, hinfo, containerKlen, containerNlen, containerIlen, hfield 0 (by omega),
    hfield 2 (by omega), hfield 4 (by omega)]
  simp only [parseContainer]
  rw [slice_append_slice v (by omega) (by omega), slice_append_slice v (by omega) (by omega),
    slice_append_slice v (by omega) (by omega), slice_append_slice v (by omega) (by omega),
    slice_append_slice v (by omega) (by omega), hsum, slice_all]

/-- Settles O40: the length fields of a serialized container are its lengths, and the pieces of a container that fits
are the whole string. -/
theorem containerRoundTrip : Obligations.ContainerRoundTrip :=
  ⟨fun _ _ _ hkey hnonce hinfo =>
    ⟨containerFits_containerBytes hkey hnonce hinfo, parseContainer_containerBytes hkey hnonce hinfo⟩,
    fun _ h => (containerBytes_parseContainer h).symm⟩

/-! ### The checks of a container, in the terms of the claims -/

theorem inRange_false_iff (s : State) (a n : Nat) : inRange s.cfg a n = false ↔ ¬ inDmem s a n := by
  rw [← Bool.not_eq_true, inRange_iff]

theorem containerFits_false_iff (v : Bytes) : containerFits v = false ↔ containerMisfit v := by
  rw [← Bool.not_eq_true, containerFits_iff]
  omega

theorem aesKeyLegal_iff (key : Bytes) : aesKeyLegal key = true ↔ key.length ∈ [16, 24, 32] := by
  simp [aesKeyLegal, or_assoc]

theorem aesKeyLegal_false_iff (key : Bytes) : aesKeyLegal key = false ↔ key.length ∉ [16, 24, 32] := by
  rw [← Bool.not_eq_true, aesKeyLegal_iff]

theorem roundsLegal_iff (rounds : Byte) :
    roundsLegal rounds = true ↔ 8 ≤ rounds.toNat ∧ rounds.toNat ≤ 30 ∧ rounds.toNat % 2 = 0 := by
  simp [roundsLegal, and_assoc]

theorem roundsLegal_false_iff (rounds : Byte) :
    roundsLegal rounds = false ↔ rounds.toNat < 8 ∨ 30 < rounds.toNat ∨ rounds.toNat % 2 = 1 := by
  rw [← Bool.not_eq_true, roundsLegal_iff]
  omega

/-- What a command finds when the host has put a serialized container in DMEM. -/
theorem holds_containerBytes {s : State} {kc len : Word} {key nonce info : Bytes} (hkey : key.length < 65536)
    (hnonce : nonce.length < 65536) (hinfo : info.length < 65536)
    (h : holds s kc len (containerBytes key nonce info)) :
    inRange s.cfg kc.toNat len.toNat = true ∧ containerFits (operand s kc len) = true ∧
      parseContainer (operand s kc len) = ⟨key, nonce, info⟩ := by
  obtain ⟨hlen, hrange, hbytes⟩ := h
  rw [operand, hlen, hbytes]
  exact ⟨(inRange_iff _ _ _).mpr (.inr hrange), containerFits_containerBytes hkey hnonce hinfo,
    parseContainer_containerBytes hkey hnonce hinfo⟩

/-- A key of a legal AES length is short enough for its length field. -/
theorem aesKey_length_lt {key : Bytes} (h : key.length ∈ [16, 24, 32]) : key.length < 65536 := by
  simp only [List.mem_cons, List.not_mem_nil, or_false] at h
  omega

/-! ### CTR.INIT -/

theorem ctrInitCheck_eq (kc len : Word) (s : State) :
    ctrInitCheck kc len s =
      if ¬ inDmem s kc.toNat len.toNat then some .srcRange
      else if containerMisfit (operand s kc len) then some .containerLen
      else if (parseContainer (operand s kc len)).key.length ∉ [16, 24, 32] then some .keyLen
      else if (parseContainer (operand s kc len)).nonce.length ≠ 16 then some .nonceLen
      else if (parseContainer (operand s kc len)).info.length ≠ 0 then some .infoLen
      else none := by
  simp only [ctrInitCheck, Bool.not_eq_true', inRange_false_iff, containerFits_false_iff, aesKeyLegal_false_iff]

/-- Settles O41: the checks of the model are those of the statement, and a container that passes them gives the key and
the counter. -/
theorem ctrInitEffect : Obligations.CtrInitEffect := by
  refine fun kc len s => ⟨fun key nonce hkey hnonce hholds => ?_, fun c hc => ?_⟩
  · obtain ⟨hrange, hfits, hparse⟩ := holds_containerBytes (aesKey_length_lt hkey) (by omega) (by simp) hholds
    have hpass : commandCheck (.ctrInit kc len) s = none := by
      simp [commandCheck, ctrInitCheck, hrange, hfits, hparse, (aesKeyLegal_iff key).mpr hkey, hnonce]
    rw [exec_of_passed hpass, commandEffect, hparse]
    rfl
  · exact raises_of_check ((ctrInitCheck_eq kc len s).trans hc)

/-! ### GCM.INIT -/

/-- The checks of the container come before the guard (R238). -/
theorem gcmInitCheck_of_container {kc len : Word} {s : State} {c : Cause}
    (h : (if ¬ inDmem s kc.toNat len.toNat then some Cause.srcRange
      else if containerMisfit (operand s kc len) then some .containerLen
      else if (parseContainer (operand s kc len)).key.length ∉ [16, 24, 32] then some .keyLen
      else if (parseContainer (operand s kc len)).nonce.length < 8 ∨
        16 < (parseContainer (operand s kc len)).nonce.length then some .nonceLen
      else if (parseContainer (operand s kc len)).info.length ≠ 0 then some .infoLen
      else none) = some c) : gcmInitCheck kc len s = some c := by
  simp only [gcmInitCheck, Bool.not_eq_true', inRange_false_iff, containerFits_false_iff, aesKeyLegal_false_iff]
  split_ifs at h ⊢ <;> exact h

/-- With a container of legal sizes only the guard is left to check (R233, R238). -/
theorem gcmInitCheck_guard {kc len : Word} {s : State} {key nonce : Bytes} (hkey : key.length ∈ [16, 24, 32])
    (hmin : 8 ≤ nonce.length) (hmax : nonce.length ≤ 16) (h : holds s kc len (containerBytes key nonce [])) :
    gcmInitCheck kc len s = if s.gcm.guardHit key nonce = true then some .nonceRepeat else none := by
  obtain ⟨hrange, hfits, hparse⟩ := holds_containerBytes (aesKey_length_lt hkey) (by omega) (by simp) h
  have hnonce : ¬ (nonce.length < 8 ∨ 16 < nonce.length) := by omega
  simp [gcmInitCheck, hrange, hfits, hparse, (aesKeyLegal_iff key).mpr hkey, hnonce]

theorem GcmUnit.guardHit_iff (u : GcmUnit) (key nonce : Bytes) :
    u.guardHit key nonce = true ↔ u.guardValid = true ∧ u.guardKey = key ∧ u.guardN = nonce := by
  simp [GcmUnit.guardHit, and_assoc, eq_comm (a := key), eq_comm (a := nonce)]

/-- Settles O44: after the checks of the container the guard decides between NONCE_REPEAT and the setup of R235. -/
theorem gcmInitEffect : Obligations.GcmInitEffect := by
  refine ⟨fun enc autoInc keepAd kc len s key nonce hkey hmin hmax hholds => ⟨fun hmiss => ?_, fun hhit => ?_⟩,
    fun enc autoInc keepAd kc len s c hc => raises_of_check (gcmInitCheck_of_container hc)⟩
  · obtain ⟨-, -, hparse⟩ := holds_containerBytes (aesKey_length_lt hkey) (by omega) (by simp) hholds
    have hpass : commandCheck (.gcmInit enc autoInc keepAd kc len) s = none :=
      (gcmInitCheck_guard hkey hmin hmax hholds).trans (if_neg (mt (GcmUnit.guardHit_iff _ _ _).mp hmiss))
    rw [exec_of_passed hpass, commandEffect, hparse]
    rfl
  · exact raises_of_check
      ((gcmInitCheck_guard hkey hmin hmax hholds).trans (if_pos ((GcmUnit.guardHit_iff _ _ _).mpr hhit)))

/-! ### SS.INIT -/

theorem ssInitCheck_eq (rounds : Byte) (kc len : Word) (s : State) :
    ssInitCheck rounds kc len s =
      if rounds.toNat < 8 ∨ 30 < rounds.toNat ∨ rounds.toNat % 2 = 1 then some .rounds
      else if ¬ inDmem s kc.toNat len.toNat then some .srcRange
      else if containerMisfit (operand s kc len) then some .containerLen
      else if (parseContainer (operand s kc len)).key.length ∉ [16, 32] then some .keyLen
      else if (parseContainer (operand s kc len)).nonce.length ≠ 8 then some .nonceLen
      else if (parseContainer (operand s kc len)).info.length ∉ [0, 16] then some .infoLen
      else none := by
  simp only [ssInitCheck, Bool.not_eq_true', inRange_false_iff, containerFits_false_iff, roundsLegal_false_iff,
    List.mem_cons, List.not_mem_nil, or_false, not_or, ne_eq]

/-- Key word `i` of R332: a 16-byte key is taken twice (R331). -/
theorem leWordAt_key {key : Bytes} (h : key.length = 16 ∨ key.length = 32) {i : Nat} (hi : i < 8) :
    leWordAt (if key.length = 16 then key ++ key else key) i =
      le32 (slice key (4 * (i % (key.length / 4))) (4 * (i % (key.length / 4)) + 4)) := by
  rw [leWordAt]
  rcases h with h | h
  · rw [if_pos h, h]
    rcases Nat.lt_or_ge i 4 with hlow | hhigh
    · rw [slice_append_left (by omega), Nat.mod_eq_of_lt hlow]
    · rw [slice_append_right (by omega), h, show i % (16 / 4) = i - 4 by omega,
        show 4 * i - 16 = 4 * (i - 4) by omega, show 4 * i + 4 - 16 = 4 * (i - 4) + 4 by omega]
  · rw [if_neg (by omega), h, Nat.mod_eq_of_lt hi]

/-- Settles O56: the checks of the model are those of the statement, and a container that passes them gives the sixteen
words of R332. -/
theorem ssInitEffect : Obligations.SsInitEffect := by
  refine ⟨fun rounds kc len s key nonce info =>
    ⟨fun hrounds hkey hnonce hinfo hholds => ?_, fun hrounds => ?_⟩,
    fun rounds kc len s c hc => raises_of_check ((ssInitCheck_eq rounds kc len s).trans hc)⟩
  · obtain ⟨hrange, hfits, hparse⟩ := holds_containerBytes (by omega) (by omega) (by omega) hholds
    have hpass : commandCheck (.ssInit rounds kc len) s = none := by
      have hkey' : ¬ (key.length ≠ 16 ∧ key.length ≠ 32) := by omega
      have hinfo' : ¬ (info.length ≠ 0 ∧ info.length ≠ 16) := by omega
      simp only [commandCheck, ssInitCheck, (roundsLegal_iff rounds).mpr hrounds, hrange, hfits, hparse, hnonce,
        if_neg hkey', if_neg hinfo', Bool.not_true, Bool.false_eq_true, if_false, ne_eq, not_true_eq_false]
    rw [exec_of_passed hpass, commandEffect, hparse]
    rw [SsUnit.init, ssExpand]
    have hword := fun i hi => leWordAt_key (i := i) hkey hi
    rw [hword 0 (by omega), hword 1 (by omega), hword 2 (by omega), hword 3 (by omega), hword 4 (by omega),
      hword 5 (by omega), hword 6 (by omega), hword 7 (by omega)]
    rfl
  · have hcheck : commandCheck (.ssInit rounds kc len) s = some .rounds :=
      (ssInitCheck_eq rounds kc len s).trans (if_pos (by omega))
    exact raises_of_check hcheck

end Sys2Proof.Machine
end

section
/-! The stream transforms: the loop that units CTR, GCM and SS share, its output byte by byte (R215, R337), and the
three commands that write it to DMEM (R213, R242, R334). -/

namespace Sys2Proof.Machine

/-! ### The loop over the pieces of the input -/

/-- The loop of R213 and R334 for any keystream: `ks` gives the block of a counter state, `next` the state after it. -/
def streamLoop {σ : Type} (ks : σ → Bytes) (next : σ → σ) : List Bytes → σ → Bytes × σ
  | [], w => ([], w)
  | blk :: rest, w =>
    (xorBytes blk (ks w) ++ (streamLoop ks next rest (next w)).1, (streamLoop ks next rest (next w)).2)

theorem ctrLoop_eq_streamLoop (key : Bytes) (blocks : List Bytes) (c : Block) :
    ctrLoop key blocks c = streamLoop (fun c => blockBytes (aes key c)) inc128 blocks c := by
  induction blocks generalizing c with
  | nil => rfl
  | cons blk rest ih => rw [ctrLoop, streamLoop, ih]

theorem ssLoop_eq_streamLoop (rounds : Nat) (blocks : List Bytes) (w : SalsaWords) :
    ssLoop rounds blocks w = streamLoop (fun w => salsaBlock w rounds) ssIncrement blocks w := by
  induction blocks generalizing w with
  | nil => rfl
  | cons blk rest ih => rw [ssLoop, streamLoop, ih]

theorem chunksFuel_nil (k f : Nat) : chunksFuel k f [] = [] := by cases f <;> rfl

theorem chunksFuel_succ (k f : Nat) {s : Bytes} (hs : s ≠ []) :
    chunksFuel k (f + 1) s = s.take k :: chunksFuel k f (s.drop k) := by
  rw [chunksFuel, if_neg (by simpa using hs)]

/-- Byte `j` of an exclusive-or. -/
theorem xorBytes_getD {s t : Bytes} {j : Nat} (hs : j < s.length) (ht : j < t.length) :
    (xorBytes s t).getD j 0 = s.getD j 0 ^^^ t.getD j 0 := by
  have hj : j < (xorBytes s t).length := by
    rw [xorBytes_length]
    omega
  rw [List.getD_eq_getElem _ _ hj, List.getD_eq_getElem _ _ hs, List.getD_eq_getElem _ _ ht]
  exact List.getElem_zipWith

section

variable {σ : Type} {ks : σ → Bytes} {next : σ → σ} {k : Nat}

/-- The output is as long as the input. -/
theorem streamLoop_length (hks : ∀ w, (ks w).length = k) (hk : 0 < k) (f : Nat) {s : Bytes} (hf : s.length ≤ f) (w : σ) :
    (streamLoop ks next (chunksFuel k f s) w).1.length = s.length := by
  induction f generalizing s w with
  | zero =>
    obtain rfl := List.length_eq_zero_iff.mp (Nat.le_zero.mp hf)
    rfl
  | succ f ih =>
    rcases eq_or_ne s [] with rfl | hs
    · rfl
    · have hpos := List.length_pos_iff.mpr hs
      have hrest := ih (s := s.drop k) (by rw [List.length_drop]; omega) (next w)
      rw [chunksFuel_succ k f hs, streamLoop, List.length_append, hrest, xorBytes_length, hks, List.length_take,
        List.length_drop]
      omega

/-- Byte `j` of the output: byte `j` of the input, and byte `j % k` of block `j / k` of the keystream. -/
theorem streamLoop_getD (hks : ∀ w, (ks w).length = k) (hk : 0 < k) (f : Nat) {s : Bytes} (hf : s.length ≤ f) (w : σ)
    {j : Nat} (hj : j < s.length) :
    (streamLoop ks next (chunksFuel k f s) w).1.getD j 0 = s.getD j 0 ^^^ (ks (next^[j / k] w)).getD (j % k) 0 := by
  induction f generalizing s w j with
  | zero => omega
  | succ f ih =>
    have hs : s ≠ [] := List.length_pos_iff.mp (by omega)
    have hblock : (xorBytes (s.take k) (ks w)).length = min k s.length := by
      rw [xorBytes_length, hks, List.length_take]
      omega
    rw [chunksFuel_succ k f hs, streamLoop]
    rcases Nat.lt_or_ge j k with hlow | hhigh
    · rw [List.getD_append _ _ _ _ (by omega),
        xorBytes_getD (by rw [List.length_take]; omega) (by rw [hks]; exact hlow), Nat.div_eq_of_lt hlow,
        Nat.mod_eq_of_lt hlow, Function.iterate_zero, id]
      simp [List.getD, hlow]
    · obtain ⟨i, rfl⟩ := Nat.exists_eq_add_of_le hhigh
      have hrest := ih (s := s.drop k) (by rw [List.length_drop]; omega) (next w) (j := i)
        (by rw [List.length_drop]; omega)
      rw [List.getD_append_right _ _ _ _ (by omega), hblock, show k + i - min k s.length = i by omega, hrest,
        Nat.add_div_left _ hk, Nat.add_mod_left, Function.iterate_succ_apply]
      simp [List.getD]

/-- The state after the loop has advanced by the number of started blocks. -/
theorem streamLoop_state (hk : 0 < k) (f : Nat) {s : Bytes} (hf : s.length ≤ f) (w : σ) :
    (streamLoop ks next (chunksFuel k f s) w).2 = next^[(s.length + (k - 1)) / k] w := by
  induction f generalizing s w with
  | zero =>
    obtain rfl := List.length_eq_zero_iff.mp (Nat.le_zero.mp hf)
    rw [List.length_nil, Nat.zero_add, Nat.div_eq_of_lt (by omega)]
    rfl
  | succ f ih =>
    rcases eq_or_ne s [] with rfl | hs
    · rw [List.length_nil, Nat.zero_add, Nat.div_eq_of_lt (by omega)]
      rfl
    · have hpos := List.length_pos_iff.mpr hs
      have hblocks : (s.length + (k - 1)) / k = ((s.drop k).length + (k - 1)) / k + 1 := by
        rw [← Nat.add_div_right _ hk, List.length_drop]
        rcases Nat.le_total k s.length with hle | hle
        · congr 1
          omega
        · rw [show s.length - k + (k - 1) + k = k - 1 + 1 * k by omega,
            show s.length + (k - 1) = s.length - 1 + 1 * k by omega, Nat.add_mul_div_right _ _ hk,
            Nat.add_mul_div_right _ _ hk, Nat.div_eq_of_lt (by omega : s.length - 1 < k),
            Nat.div_eq_of_lt (by omega : k - 1 < k)]
      rw [chunksFuel_succ k f hs, streamLoop, hblocks, Function.iterate_succ_apply]
      exact ih (by rw [List.length_drop]; omega) (next w)

end

/-! ### Counter mode (R211, R215) -/

theorem inc128_iterate (n : Nat) (c : Block) : inc128^[n] c = c + BitVec.ofNat 128 n := by
  induction n with
  | zero => simp
  | succ n ih => 
    rw [Function.iterate_succ_apply', ih, inc128, BitVec.ofNat_add, ← BitVec.add_assoc]
    rfl

theorem ctrStream_length (key : Bytes) (c : Block) (input : Bytes) :
    (ctrStream key c input).1.length = input.length := by
  rw [ctrStream, ctrLoop_eq_streamLoop]
  exact streamLoop_length (fun _ => blockBytes_length _) (by omega) _ (Nat.le_refl _) c

theorem ctrStream_getD (key : Bytes) (c : Block) {input : Bytes} {j : Nat} (hj : j < input.length) :
    (ctrStream key c input).1.getD j 0 = input.getD j 0 ^^^ ctrKeystreamByte key c j := by
  rw [ctrStream, ctrLoop_eq_streamLoop, ctrKeystreamByte, ← inc128_iterate]
  exact streamLoop_getD (fun _ => blockBytes_length _) (by omega) _ (Nat.le_refl _) c hj

theorem ctrStream_counter (key : Bytes) (c : Block) (input : Bytes) :
    (ctrStream key c input).2 = c + BitVec.ofNat 128 ((input.length + 15) / 16) := by
  rw [ctrStream, ctrLoop_eq_streamLoop, ← inc128_iterate]
  exact streamLoop_state (by omega) _ (Nat.le_refl _) c

/-! ### Salsa20 (R335, R337) -/

/-- The two words of the counter are its halves (R59, R332). -/
theorem counterWords_append (n : Word64) : n.extractLsb' 32 32 ++ n.extractLsb' 0 32 = n :=
  (BitVec.extractLsb'_append_extractLsb'_eq_extractLsb' (start₁ := 0) (len₁ := 32) (start₂ := 32) (len₂ := 32)
    rfl).trans BitVec.extractLsb'_eq_self

theorem ssCounter_ssAdvance (w : SalsaWords) (n : Nat) :
    ssCounter (ssAdvance w n) = ssCounter w + BitVec.ofNat 64 n := by
  simp only [ssCounter, ssAdvance, Vector.getElem_set]
  exact counterWords_append _

theorem ssAdvance_zero (w : SalsaWords) : ssAdvance w 0 = w := by
  have hcounter : ssCounter w + BitVec.ofNat 64 0 = w[9] ++ w[8] := BitVec.add_zero _
  simp only [ssAdvance, hcounter]
  rw [BitVec.extractLsb'_append_eq_right, BitVec.extractLsb'_append_eq_left]
  simp

/-- Advancing by one block is `SsIncrement` (R335). -/
theorem ssIncrement_ssAdvance (w : SalsaWords) (n : Nat) : ssIncrement (ssAdvance w n) = ssAdvance w (n + 1) := by
  have hcounter : ssCounter (ssAdvance w n) + 1 = ssCounter w + BitVec.ofNat 64 (n + 1) := by
    rw [ssCounter_ssAdvance, BitVec.ofNat_add, ← BitVec.add_assoc]
    rfl
  simp only [ssIncrement, hcounter]
  rw [ssAdvance, ssAdvance]
  ext i hi
  simp only [Vector.getElem_set]
  split_ifs <;> rfl

theorem ssIncrement_iterate (n : Nat) (w : SalsaWords) : ssIncrement^[n] w = ssAdvance w n := by
  induction n with
  | zero => exact (ssAdvance_zero w).symm
  | succ n ih => rw [Function.iterate_succ_apply', ih, ssIncrement_ssAdvance]

theorem ssStream_length (rounds : Byte) (w : SalsaWords) (input : Bytes) :
    (ssStream rounds w input).1.length = input.length := by
  rw [ssStream, ssLoop_eq_streamLoop]
  exact streamLoop_length (fun _ => salsaBlock_length _ _) (by omega) _ (Nat.le_refl _) w

theorem ssStream_getD (rounds : Byte) (w : SalsaWords) {input : Bytes} {j : Nat} (hj : j < input.length) :
    (ssStream rounds w input).1.getD j 0 = input.getD j 0 ^^^ ssKeystreamByte rounds w j := by
  rw [ssStream, ssLoop_eq_streamLoop, ssKeystreamByte, ← ssIncrement_iterate]
  exact streamLoop_getD (fun _ => salsaBlock_length _ _) (by omega) _ (Nat.le_refl _) w hj

theorem ssStream_words (rounds : Byte) (w : SalsaWords) (input : Bytes) :
    (ssStream rounds w input).2 = ssAdvance w ((input.length + 63) / 64) := by
  rw [ssStream, ssLoop_eq_streamLoop, ← ssIncrement_iterate]
  exact streamLoop_state (by omega) _ (Nat.le_refl _) w

/-! ### The ranges and the write of a transform (R83 to R85, R21) -/

theorem overlap_iff (a b n : Nat) : overlap a b n = true ↔ overlapInPart a b n := by
  rw [← Bool.not_eq_false, overlap_false_iff]
  omega

/-- The range checks of a transform, in the terms of the claims. -/
theorem xformRangeCheck_eq (src dst len : Word) (s : State) :
    xformRangeCheck src dst len s = xformError s src.toNat dst.toNat len.toNat := by
  simp only [xformRangeCheck, xformError, Bool.not_eq_true', inRange_false_iff, overlap_iff]

/-- Ranges in DMEM that are equal or disjoint pass. -/
theorem xformError_of_legal {src dst len : Word} {s : State}
    (h : len.toNat = 0 ∨ (src.toNat + len.toNat ≤ s.cfg.dmemSize ∧ dst.toNat + len.toNat ≤ s.cfg.dmemSize ∧
      (src = dst ∨ src.toNat + len.toNat ≤ dst.toNat ∨ dst.toNat + len.toNat ≤ src.toNat))) :
    xformError s src.toNat dst.toNat len.toNat = none := by
  rw [← xformRangeCheck_eq, xformRangeCheck_none, inRange_iff, inRange_iff, overlap_false_iff]
  rcases h with h | ⟨hsrc, hdst, rfl | h⟩
  · exact ⟨.inl h, .inl h, .inl h⟩
  · exact ⟨.inr hsrc, .inr hdst, .inr (.inl rfl)⟩
  · exact ⟨.inr hsrc, .inr hdst, .inr (.inr h)⟩

/-- DMEM after a transform: byte `j` of the destination is byte `j` of the source as it was, xor byte `j` of the
keystream, and no other byte changes. -/
theorem readByte_transformed {m : Memory} (hwf : m.wf) {src dst n : Nat} {v : Bytes} {ks : Nat → Byte}
    (hlen : v.length = n) (hv : ∀ j, j < n → v.getD j 0 = (m.readBytes src n).getD j 0 ^^^ ks j) (b : Nat) :
    (m.writeBytes dst v).readByte b =
      if dst ≤ b ∧ b < dst + n then m.readByte (src + (b - dst)) ^^^ ks (b - dst) else m.readByte b := by
  rw [Memory.readByte_writeBytes hwf, hlen]
  refine if_ctx_congr Iff.rfl (fun hin => ?_) (fun _ => rfl)
  rw [hv _ (by omega), Memory.readBytes_getD, if_pos (by omega)]

/-- A string that was written is read back. -/
theorem readBytes_writeBytes {m : Memory} (hwf : m.wf) (a : Nat) (v : Bytes) :
    (m.writeBytes a v).readBytes a v.length = v := by
  refine List.ext_getElem (Memory.readBytes_length _ _ _) fun i _ hi => ?_
  simp only [Memory.readBytes, List.getElem_map, List.getElem_range, Memory.readByte_writeBytes hwf]
  rw [if_pos (by omega), Nat.add_sub_cancel_left, List.getD_eq_getElem _ _ hi]

/-! ### CTR.XFORM -/

theorem ctrXformCheck_ready {src dst len : Word} {s : State} (hp : s.ctr.phase = .ready) :
    ctrXformCheck src dst len s = xformError s src.toNat dst.toNat len.toNat := by
  rw [ctrXformCheck, if_neg (not_not.mpr hp), xformRangeCheck_eq]

theorem ctrXformEffect_eq (src dst len : Word) (s : State) :
    ctrXformEffect src dst len s =
      { s with
        ctr := { s.ctr with c := s.ctr.c + BitVec.ofNat 128 ((len.toNat + 15) / 16) }
        dmem := s.dmem.writeBytes dst.toNat (ctrStream s.ctr.key s.ctr.c (operand s src len)).1
        result := 0, status := s.status.ended false } := by
  simp only [ctrXformEffect, ctrStream_counter, operand_length]
  rfl

/-! ### GCM.XFORM -/

theorem gcmXformCheck_inSession {src dst len : Word} {s : State}
    (hp : s.gcm.phase ∈ [.ready, .aadLoaded, .transforming]) (htail : s.gcm.tail = false) :
    gcmXformCheck src dst len s = xformError s src.toNat dst.toNat len.toNat := by
  have huninit : s.gcm.phase ≠ .uninit := fun h => by simp [h] at hp
  have hfinal : s.gcm.phase ≠ .finalized := fun h => by simp [h] at hp
  rw [gcmXformCheck, if_neg huninit, if_neg hfinal, htail, ← xformRangeCheck_eq]
  rfl

/-- The ciphertext is what the command writes when it encrypts, and what it reads when it decrypts (R241). -/
theorem gcmXformEffect_eq (src dst len : Word) {s : State} (htail : s.gcm.tail = false) :
    gcmXformEffect src dst len s =
      { s with
        gcm := { s.gcm with
          X := ghashSeg s.gcm.H s.gcm.X
            (if s.gcm.enc then (ctrStream s.gcm.key s.gcm.c (operand s src len)).1 else operand s src len)
          c := s.gcm.c + BitVec.ofNat 128 ((len.toNat + 15) / 16)
          msgSize := s.gcm.msgSize + BitVec.ofNat 64 len.toNat
          tail := decide (len.toNat % 16 ≠ 0)
          phase := .transforming }
        dmem := s.dmem.writeBytes dst.toNat (ctrStream s.gcm.key s.gcm.c (operand s src len)).1
        result := 0, status := s.status.ended false } := by
  have hbne : (len.toNat % 16 != 0) = decide (len.toNat % 16 ≠ 0) := by simp [bne, Bool.beq_eq_decide_eq]
  simp only [gcmXformEffect, GcmUnit.xform, ctrStream_counter, operand_length, htail, Bool.false_or, hbne]
  rfl

/-! ### SS.XFORM -/

theorem ssXformCheck_ready {src dst len : Word} {s : State} (hp : s.ss.phase = .ready) :
    ssXformCheck src dst len s = xformError s src.toNat dst.toNat len.toNat := by
  rw [ssXformCheck, if_neg (not_not.mpr hp), xformRangeCheck_eq]

theorem ssXformEffect_eq (src dst len : Word) (s : State) :
    ssXformEffect src dst len s =
      { s with
        ss := { s.ss with s := ssAdvance s.ss.s ((len.toNat + 63) / 64) }
        dmem := s.dmem.writeBytes dst.toNat (ssStream s.ss.rounds s.ss.s (operand s src len)).1
        result := 0, status := s.status.ended false } := by
  simp only [ssXformEffect, ssStream_words, operand_length]
  rfl

end Sys2Proof.Machine

/-! The names of the three statements are taken in `Sys2Proof.Machine` by the effects of the model. -/

namespace Sys2Proof.Machine.Settled

/-- Settles O42: the range checks, then the stream of counter mode at the destination. -/
theorem ctrXformEffect : Obligations.CtrXformEffect := by
  refine fun src dst len s hp => ⟨fun hwf hlegal => ?_, fun c hc => raises_of_check ((ctrXformCheck_ready hp).trans hc)⟩
  have hpass : commandCheck (.ctrXform src dst len) s = none :=
    (ctrXformCheck_ready hp).trans (xformError_of_legal hlegal)
  refine ⟨_, exec_of_passed hpass, ctrXformEffect_eq src dst len s, ?_⟩
  exact readByte_transformed hwf ((ctrStream_length _ _ _).trans (operand_length _ _ _))
    fun j hj => ctrStream_getD _ _ (by rwa [operand_length])

/-- Settles O46: the range checks, then the stream of counter mode at the destination, whose ciphertext is hashed. -/
theorem gcmXformEffect : Obligations.GcmXformEffect := by
  refine fun src dst len s hp htail =>
    ⟨fun hwf hlegal => ?_, fun c hc => raises_of_check ((gcmXformCheck_inSession hp htail).trans hc)⟩
  have hpass : commandCheck (.gcmXform src dst len) s = none :=
    (gcmXformCheck_inSession hp htail).trans (xformError_of_legal hlegal)
  have hlen : (ctrStream s.gcm.key s.gcm.c (operand s src len)).1.length = len.toNat :=
    (ctrStream_length _ _ _).trans (operand_length _ _ _)
  have hwritten := readBytes_writeBytes hwf dst.toNat (ctrStream s.gcm.key s.gcm.c (operand s src len)).1
  rw [hlen] at hwritten
  refine ⟨_, exec_of_passed hpass, ?_, ?_⟩
  · rw [commandEffect, gcmXformEffect_eq src dst len htail, hwritten]
    rfl
  · exact readByte_transformed hwf hlen fun j hj => ctrStream_getD _ _ (by rwa [operand_length])

/-- Settles O57: the range checks, then the stream of Salsa20 at the destination. -/
theorem ssXformEffect : Obligations.SsXformEffect := by
  refine fun src dst len s hp => ⟨fun hwf hlegal => ?_, fun c hc => raises_of_check ((ssXformCheck_ready hp).trans hc)⟩
  have hpass : commandCheck (.ssXform src dst len) s = none :=
    (ssXformCheck_ready hp).trans (xformError_of_legal hlegal)
  refine ⟨_, exec_of_passed hpass, ssXformEffect_eq src dst len s, ?_⟩
  exact readByte_transformed hwf ((ssStream_length _ _ _).trans (operand_length _ _ _))
    fun j hj => ssStream_getD _ _ (by rwa [operand_length])

end Sys2Proof.Machine.Settled
end

section
/-! The fields and steps of decoding, both ways (spec/30_encoding.md R110 to R118): the word W0 from its fields, the row
of an opcode byte, the four steps of R116, and the encoding of the command that a row builds. -/

namespace Sys2Proof

/-! ### The fields of W0 (R110) -/

/-- The reserved bits are the high byte of W0 (R110). -/
theorem Desc.reserved_eq_zero_iff (d : Desc) : d.reserved = 0 ↔ d.w0.toNat / 2 ^ 24 = 0 := by
  have hw0 := d.w0.isLt
  have hzero : (0 : Byte).toNat = 0 := rfl
  simp only [Desc.reserved, ← BitVec.toNat_inj, BitVec.extractLsb'_toNat, Nat.shiftRight_eq_div_pow, hzero]
  omega

/-- W0 is its four fields, IMM8, FLAGS and the opcode byte under the reserved bits (R110). -/
theorem Desc.w0_eq_opWord {d : Desc} (h : d.reserved = 0) : d.w0 = opWord d.opcode d.flags d.imm8 := by
  apply BitVec.eq_of_getLsbD_eq
  intro i hi
  have hhigh : 24 ≤ i → d.w0.getLsbD i = false := fun h24 => by
    have hbit := congrArg (·.getLsbD (i - 24)) h
    simpa [Desc.reserved, Nat.add_sub_cancel' h24, show i - 24 < 8 by omega] using hbit
  rw [opWord_getLsbD]
  simp only [Desc.opcode, Desc.flags, Desc.imm8, BitVec.getLsbD_extractLsb']
  split_ifs with h8 h16 h24
  · simp [h8]
  · simp [show i - 8 < 8 by omega, show 8 + (i - 8) = i by omega]
  · simp [show i - 16 < 8 by omega, show 16 + (i - 16) = i by omega]
  · exact hhigh (by omega)

/-! ### The row of an opcode byte (R118) -/

/-- "The opcode bytes are all different" (R118). -/
theorem opTable_opcodes_differ : opTable.Pairwise fun r q => r.opcode ≠ q.opcode := by
  have hbytes : (opTable.map OpRow.opcode).Pairwise (· ≠ ·) := by decide
  exact List.pairwise_map.mp hbytes

/-- The row a descriptor selects is the one row with its opcode byte (R118). -/
theorem rowOf_eq_some_iff {o : Byte} {r : OpRow} : rowOf o = some r ↔ r ∈ opTable ∧ r.opcode = o := by
  constructor
  · intro h
    exact ⟨List.mem_of_find?_eq_some h, by simpa using List.find?_some h⟩
  · rintro ⟨hr, rfl⟩
    obtain ⟨before, after, htable⟩ := List.append_of_mem hr
    have hdiffer := opTable_opcodes_differ
    rw [htable, List.pairwise_append] at hdiffer
    obtain ⟨-, -, hbefore⟩ := hdiffer
    refine List.find?_eq_some_iff_append.mpr ⟨by simp, before, after, htable, fun q hq => ?_⟩
    simpa using hbefore q hq r List.mem_cons_self

/-- No row is selected when no row has the opcode byte. -/
theorem rowOf_eq_none_iff {o : Byte} : rowOf o = none ↔ ∀ r ∈ opTable, r.opcode ≠ o := by
  simp [rowOf]

/-! ### The four steps of decoding (R116) -/

/-- Step 2 of R116: the unit is one of 8 to 15, or an optional one that the build lacks. -/
theorem unitAbsent_iff {hasJent hasDrbg : Bool} {u : BitVec 4} :
    unitAbsent hasJent hasDrbg u = true ↔
      8 ≤ u.toNat ∨ (u = 6 ∧ hasJent = false) ∨ (u = 7 ∧ hasDrbg = false) := by
  simp [unitAbsent, ← BitVec.toNat_inj, or_assoc]

/-- Step 4 of R116: an undefined FLAGS bit, an undefined IMM8, or a word that the format does not use. -/
theorem reservedSet_iff {r : OpRow} {d : Desc} :
    reservedSet r d = true ↔
      d.flags &&& ~~~ r.flags ≠ 0 ∨ (r.imm = false ∧ d.imm8 ≠ 0) ∨ (r.format.usesA = false ∧ d.w1 ≠ 0) ∨
        (r.format.usesB = false ∧ d.w2 ≠ 0) ∨ (r.format.usesN = false ∧ d.w3 ≠ 0) := by
  simp [reservedSet, or_assoc]

section
variable {hasJent hasDrbg : Bool} {d : Desc}

/-- Step 1 of R116 fails. -/
theorem decode_of_reserved (h : d.reserved ≠ 0) : decode hasJent hasDrbg d = .illegal .reservedNonzero := by
  simp only [decode, bne_iff_ne.mpr h, if_true]

/-- Step 2 of R116 fails. -/
theorem decode_of_unitAbsent (h : d.reserved = 0) (hunit : unitAbsent hasJent hasDrbg d.unit = true) :
    decode hasJent hasDrbg d = .illegal .illegalUnit := by
  simp [decode, h, hunit]

/-- Step 3 of R116 fails. -/
theorem decode_of_noRow (h : d.reserved = 0) (hunit : unitAbsent hasJent hasDrbg d.unit = false)
    (hrow : rowOf d.opcode = none) : decode hasJent hasDrbg d = .illegal .illegalOp := by
  simp [decode, h, hunit, hrow]

/-- Step 4 of R116 decides between its error and the command of the row. -/
theorem decode_of_row {r : OpRow} (h : d.reserved = 0) (hunit : unitAbsent hasJent hasDrbg d.unit = false)
    (hrow : rowOf d.opcode = some r) :
    decode hasJent hasDrbg d = if reservedSet r d then .illegal .reservedNonzero else .command (r.build d) := by
  simp [decode, h, hunit, hrow]

/-- A descriptor decodes to a command only when all four steps of R116 pass. -/
theorem passed_of_decode {i : Instr} (h : decode hasJent hasDrbg d = .command i) :
    d.reserved = 0 ∧ unitAbsent hasJent hasDrbg d.unit = false ∧ rowDecodes d i := by
  by_cases hreserved : d.reserved = 0
  swap
  · simp [decode_of_reserved hreserved] at h
  cases hunit : unitAbsent hasJent hasDrbg d.unit with
  | true => simp [decode_of_unitAbsent hreserved hunit] at h
  | false =>
    cases hrow : rowOf d.opcode with
    | none => simp [decode_of_noRow hreserved hunit hrow] at h
    | some r =>
      rw [decode_of_row hreserved hunit hrow] at h
      cases hset : reservedSet r d with
      | true => simp [hset] at h
      | false => exact ⟨hreserved, rfl, r, hrow, hset, by simpa [hset] using h⟩

end

/-! ### The command that a row builds, encoded (R111, R114, R115) -/

/-- The descriptor with the opcode byte of the row, the fields of `d` that the row defines, and 0 in every other. -/
def OpRow.definedPart (r : OpRow) (d : Desc) : Desc :=
  ⟨opWord r.opcode (d.flags &&& r.flags) (if r.imm then d.imm8 else 0), if r.format.usesA then d.w1 else 0,
    if r.format.usesB then d.w2 else 0, if r.format.usesN then d.w3 else 0⟩

/-- A field of FLAGS without undefined bits is its defined part. -/
theorem and_eq_self_of_and_not_eq_zero {f g : Byte} (h : f &&& ~~~ g = 0) : f &&& g = f := by
  calc f &&& g = (f &&& g) ||| (f &&& ~~~ g) := by rw [h]; simp
    _ = f := by rw [← BitVec.and_or_distrib_left, BitVec.or_not_self, BitVec.and_allOnes]

/-- A descriptor that passes steps 1 and 4 of R116 has nothing outside the fields that its row defines. -/
theorem definedPart_eq_self {r : OpRow} {d : Desc} (hreserved : d.reserved = 0) (hop : r.opcode = d.opcode)
    (hset : reservedSet r d = false) : r.definedPart d = d := by
  have hpass := reservedSet_iff.not.mp (Bool.eq_false_iff.mp hset)
  simp only [not_or, not_and, ne_eq, not_not] at hpass
  obtain ⟨hflags, himm, ha, hb, hn⟩ := hpass
  have himm8 : (if r.imm then d.imm8 else 0) = d.imm8 := by
    cases h : r.imm <;> simp [himm, h]
  have hw0 : opWord r.opcode (d.flags &&& r.flags) (if r.imm then d.imm8 else 0) = d.w0 := by
    rw [hop, and_eq_self_of_and_not_eq_zero hflags, himm8, ← Desc.w0_eq_opWord hreserved]
  have hw1 : (if r.format.usesA then d.w1 else 0) = d.w1 := by
    cases h : r.format.usesA <;> simp [ha, h]
  have hw2 : (if r.format.usesB then d.w2 else 0) = d.w2 := by
    cases h : r.format.usesB <;> simp [hb, h]
  have hw3 : (if r.format.usesN then d.w3 else 0) = d.w3 := by
    cases h : r.format.usesN <;> simp [hn, h]
  rw [OpRow.definedPart, hw0, hw1, hw2, hw3]

/-- A flag bit that was read from FLAGS and is put back (R114). -/
theorem flagBit_getLsbD (k : Nat) (f : Byte) : flagBit k (f.getLsbD k) = f &&& 1#8 <<< k := by
  rw [← BitVec.twoPow_eq, BitVec.and_twoPow]
  rfl

/-- The three flags of GCM.INIT, FLAGS[2:0], read and put back (R114). -/
theorem flagBits_gcmInit (f : Byte) :
    flagBit 0 (f.getLsbD 0) ||| flagBit 1 (f.getLsbD 1) ||| flagBit 2 (f.getLsbD 2) = f &&& 7 := by
  simp only [flagBit_getLsbD, ← BitVec.and_or_distrib_left]
  rfl

/-- Flag ALG of DG.INIT, FLAGS[0], read as an algorithm and put back (R114). -/
theorem flagBit_alg (f : Byte) :
    flagBit 0 ((if f.getLsbD 0 then HashAlg.keccak else .blake2b) == .keccak) = f &&& 1 := by
  rw [show (1 : Byte) = 1#8 <<< 0 from rfl, ← flagBit_getLsbD]
  cases f.getLsbD 0 <;> rfl

/-- The kind of DRBG.INIT, FLAGS[1:0], read and put back (R114). -/
theorem setWidth_kind (f : Byte) : (f.extractLsb' 0 2).setWidth 8 = f &&& 3 := by
  apply BitVec.eq_of_toNat_eq
  have hmask : f.toNat &&& 3 = f.toNat % 4 := Nat.and_two_pow_sub_one_eq_mod f.toNat 2
  simp [hmask]
  omega

/-- What a row of the table builds from `d` is encoded as the defined part of `d`: the operands go back to the fields
they came from, and the fields that the row does not define are 0 (R111, R114, R115, R118). -/
theorem encode_build (d : Desc) : ∀ r ∈ opTable, encode (r.build d) = r.definedPart d := by
  have hen : flagBit 0 (d.flags.getLsbD 0) = d.flags &&& 1 := flagBit_getLsbD 0 d.flags
  have hgcm := flagBits_gcmInit d.flags
  have halg := flagBit_alg d.flags
  have hkind := setWidth_kind d.flags
  simp only [opTable, List.forall_mem_append]
  refine ⟨⟨?_, ?_⟩, ?_⟩
  · simp [tableSysGhCtr, encode, OpRow.definedPart, Format.usesA, Format.usesB, Format.usesN, hen,
      -BitVec.getLsbD_eq_getElem]
  · simp [tableGcmDg, encode, OpRow.definedPart, Format.usesA, Format.usesB, Format.usesN, hgcm, halg,
      -BitVec.getLsbD_eq_getElem]
  · simp [tableSsJentDrbg, encode, OpRow.definedPart, Format.usesA, Format.usesB, Format.usesN, hkind,
      -BitVec.getLsbD_eq_getElem]

/-- A descriptor that passes steps 1, 3 and 4 of R116 is the encoding of its command. -/
theorem encode_of_rowDecodes {d : Desc} {i : Instr} (hreserved : d.reserved = 0) (h : rowDecodes d i) :
    encode i = d := by
  obtain ⟨r, hrow, hset, rfl⟩ := h
  obtain ⟨hr, hop⟩ := rowOf_eq_some_iff.mp hrow
  rw [encode_build d r hr, definedPart_eq_self hreserved hop hset]

/-- A word that an encoding gives decodes to its command in a build with every unit present. -/
theorem decode_of_encode_eq {i : Instr} {d : Desc} (h : encode i = d) : decode true true d = .command i := by
  have hpresent : i.wellFormed Params.standard = true := by
    rw [Instr.wellFormed]
    cases i.unit <;> rfl
  exact h ▸ decode_encode hpresent

/-! ### The statements -/

/-- Settles O1: the four steps of R116 pass on the encoding, for every command by its row. -/
theorem decodeEncode : Obligations.DecodeEncode :=
  fun _ _ hwf => decode_encode hwf

/-- Settles O2: all four steps of R116 passed, so that the descriptor is the defined part of its row, which is what the
command encodes to; its field UNIT is that of the command, which step 2 found present. -/
theorem encodeDecode : Obligations.EncodeDecode := by
  intro p d i h
  obtain ⟨hreserved, hunit, hrow⟩ := passed_of_decode h
  have hencode : encode i = d := encode_of_rowDecodes hreserved hrow
  rw [← hencode, unitAbsent_encode, Bool.not_eq_false'] at hunit
  exact ⟨hunit, hencode⟩

/-- Settles O3: each step of R116 by its own equation of the decoder. -/
theorem decodeOrder : Obligations.DecodeOrder := by
  intro hasJent hasDrbg d
  simp only [← Desc.reserved_eq_zero_iff, ← unitAbsent_iff, ← reservedSet_iff, Bool.not_eq_true]
  refine ⟨fun h => decode_of_reserved (mt d.reserved_eq_zero_iff.mp h), decode_of_unitAbsent, ?_, ?_⟩
  · intro hreserved hunit hnone
    exact decode_of_noRow hreserved hunit (rowOf_eq_none_iff.mpr hnone)
  · intro hreserved hunit r hr hop
    exact decode_of_row hreserved hunit (rowOf_eq_some_iff.mpr ⟨hr, hop⟩)

/-- Settles O4: the eight words are encodings; each of the three others fails its step of R116. -/
theorem wordsDecode : Obligations.WordsDecode := by
  refine ⟨decode_of_encode_eq (by decide), decode_of_encode_eq (by decide), decode_of_encode_eq (by decide),
    decode_of_encode_eq (by decide), decode_of_encode_eq (by decide), decode_of_encode_eq (by decide),
    decode_of_encode_eq (by decide), decode_of_encode_eq (by decide), decode_of_reserved (by decide), ?_, ?_, rfl,
    opTable_opcodes_differ⟩
  · exact decode_of_noRow (by decide) (by decide) (rowOf_eq_none_iff.mpr (by decide))
  · exact decode_of_unitAbsent (by decide) (by decide)

end Sys2Proof
end

section
/-! GHASH as a function (spec/42_ghash.md R191, R201, R202): cutting a string into blocks, splitting it at a block
boundary, and linearity over exclusive-or. -/

namespace Sys2Proof.Machine

/-! ### The pieces of a string -/

/-- The fuel of `chunksFuel` has no effect once it covers the string. -/
theorem chunksFuel_eq_chunks {k : Nat} (hk : 0 < k) {f : Nat} {s : Bytes} (hf : s.length ≤ f) :
    chunksFuel k f s = chunks k s := by
  suffices h : ∀ g, s.length ≤ g → chunksFuel k f s = chunksFuel k g s from h s.length le_rfl
  induction f generalizing s with
  | zero =>
    intro g _
    rw [List.length_eq_zero_iff.mp (Nat.le_zero.mp hf), chunksFuel_nil, chunksFuel_nil]
  | succ f ih =>
    intro g hg
    by_cases hs : s = []
    · rw [hs, chunksFuel_nil, chunksFuel_nil]
    · have hpos : 0 < s.length := List.length_pos_iff.mpr hs
      obtain ⟨g, rfl⟩ : ∃ g', g = g' + 1 := ⟨g - 1, by omega⟩
      rw [chunksFuel_succ k f hs, chunksFuel_succ k g hs,
        ih (by rw [List.length_drop]; omega) g (by rw [List.length_drop]; omega)]

@[simp] theorem chunks_nil (k : Nat) : chunks k [] = [] := rfl

/-- The recursion of `chunks`, free of fuel. -/
theorem chunks_of_ne_nil {k : Nat} (hk : 0 < k) {s : Bytes} (hs : s ≠ []) :
    chunks k s = s.take k :: chunks k (s.drop k) := by
  rw [← chunksFuel_eq_chunks hk (Nat.le_succ s.length), chunksFuel_succ k _ hs,
    chunksFuel_eq_chunks hk (by rw [List.length_drop]; omega)]

/-- A first piece of full length comes off. -/
theorem chunks_append_piece {k : Nat} (hk : 0 < k) {p : Bytes} (hp : p.length = k) (t : Bytes) :
    chunks k (p ++ t) = p :: chunks k t := by
  have hne : p ++ t ≠ [] := List.ne_nil_of_length_pos (by rw [List.length_append]; omega)
  rw [chunks_of_ne_nil hk hne, List.take_left' hp, List.drop_left' hp]

/-- Whole pieces in front of a string are cut off on their own. -/
theorem chunks_append {k : Nat} (hk : 0 < k) {s : Bytes} {n : Nat} (hs : s.length = n * k) (t : Bytes) :
    chunks k (s ++ t) = chunks k s ++ chunks k t := by
  induction n generalizing s with
  | zero =>
    rw [List.length_eq_zero_iff.mp (hs.trans (Nat.zero_mul k))]
    rfl
  | succ n ih =>
    rw [Nat.succ_mul] at hs
    have htake : (s.take k).length = k := by
      rw [List.length_take]
      omega
    have hdrop : (s.drop k).length = n * k := by
      rw [List.length_drop]
      omega
    calc chunks k (s ++ t) = chunks k (s.take k ++ (s.drop k ++ t)) := by
          rw [← List.append_assoc, List.take_append_drop]
      _ = s.take k :: (chunks k (s.drop k) ++ chunks k t) := by rw [chunks_append_piece hk htake, ih hdrop]
      _ = chunks k (s.take k ++ s.drop k) ++ chunks k t := by
          rw [chunks_append_piece hk htake, List.cons_append]
      _ = chunks k s ++ chunks k t := by rw [List.take_append_drop]

/-! ### Padding (R17) -/

theorem pad16_of_aligned {s : Bytes} (h : s.length % 16 = 0) : pad16 s = s := by
  simp [pad16, zeros, h]

theorem pad16_append {s : Bytes} (h : s.length % 16 = 0) (t : Bytes) : pad16 (s ++ t) = s ++ pad16 t := by
  have hmod : (s ++ t).length % 16 = t.length % 16 := by
    rw [List.length_append]
    omega
  rw [pad16, pad16, hmod, List.append_assoc]

theorem pad16_length (s : Bytes) : (pad16 s).length = s.length + (16 - s.length % 16) % 16 := by
  rw [pad16, List.length_append, zeros_length]

/-! ### Splitting (R202) -/

/-- The loop of R191 over blocks that are cut already. -/
def ghashBlocks (h x : Block) (blocks : List Bytes) : Block :=
  blocks.foldl (fun x p => gfmul (x ^^^ blockOfBytes p) h) x

theorem ghashSeg_eq_ghashBlocks (h x : Block) (s : Bytes) : ghashSeg h x s = ghashBlocks h x (chunks 16 (pad16 s)) := rfl

@[simp] theorem ghashBlocks_nil (h x : Block) : ghashBlocks h x [] = x := rfl

@[simp] theorem ghashBlocks_cons (h x : Block) (p : Bytes) (blocks : List Bytes) :
    ghashBlocks h x (p :: blocks) = ghashBlocks h (gfmul (x ^^^ blockOfBytes p) h) blocks := rfl

theorem ghashBlocks_append (h x : Block) (l r : List Bytes) :
    ghashBlocks h x (l ++ r) = ghashBlocks h (ghashBlocks h x l) r := List.foldl_append

/-- Settles O38: padding touches only the second part, and a block boundary between the parts splits the loop. -/
theorem ghashSplit : Obligations.GhashSplit := by
  intro h x s1 s2 haligned
  have hblocks : s1.length = s1.length / 16 * 16 := by omega
  simp only [ghashSeg_eq_ghashBlocks, pad16_of_aligned haligned, pad16_append haligned]
  rw [chunks_append (by decide) hblocks, ghashBlocks_append]

/-! ### Exclusive-or of byte strings and their blocks -/

theorem leNat_xorBytes {a b : Bytes} (hlen : a.length = b.length) : leNat (xorBytes a b) = leNat a ^^^ leNat b := by
  induction a generalizing b with
  | nil =>
    rw [List.length_eq_zero_iff.mp hlen.symm]
    rfl
  | cons u a ih =>
    cases b with
    | nil => cases hlen
    | cons v b =>
      have hu := u.isLt
      have hv := v.isLt
      have hlow : ((u.toNat + 256 * leNat a) ^^^ (v.toNat + 256 * leNat b)) % 2 ^ 8 = u.toNat ^^^ v.toNat := by
        rw [Nat.xor_mod_two_pow]
        congr 1 <;> omega
      have hhigh : ((u.toNat + 256 * leNat a) ^^^ (v.toNat + 256 * leNat b)) / 2 ^ 8 = leNat a ^^^ leNat b := by
        rw [Nat.xor_div_two_pow]
        congr 1 <;> omega
      have hcons : leNat (xorBytes (u :: a) (v :: b)) = (u ^^^ v).toNat + 256 * leNat (xorBytes a b) := rfl
      rw [hcons, ih (Nat.succ.inj hlen), BitVec.toNat_xor, ← hlow, ← hhigh, leNat, leNat]
      exact Nat.mod_add_div _ (2 ^ 8)

/-- The block of an exclusive-or is the exclusive-or of the blocks (R19). -/
theorem blockOfBytes_xorBytes {a b : Bytes} (hlen : a.length = b.length) :
    blockOfBytes (xorBytes a b) = blockOfBytes a ^^^ blockOfBytes b := by
  have hreverse : (xorBytes a b).reverse = xorBytes a.reverse b.reverse := List.reverse_zipWith hlen
  rw [blockOfBytes, beNat, hreverse, leNat_xorBytes (by simpa using hlen), BitVec.ofNat_xor]
  rfl

theorem pad16_xorBytes {a b : Bytes} (hlen : a.length = b.length) :
    pad16 (xorBytes a b) = xorBytes (pad16 a) (pad16 b) := by
  have hzeros (n : Nat) : xorBytes (zeros n) (zeros n) = zeros n := by
    rw [xorBytes, zeros, List.zipWith_replicate, min_self]
    rfl
  simp only [pad16, xorBytes_length, hlen, min_self]
  rw [xorBytes, xorBytes, List.zipWith_append hlen]
  exact congrArg _ (hzeros _).symm

theorem take_xorBytes (k : Nat) (a b : Bytes) : (xorBytes a b).take k = xorBytes (a.take k) (b.take k) :=
  List.take_zipWith

theorem drop_xorBytes (k : Nat) (a b : Bytes) : (xorBytes a b).drop k = xorBytes (a.drop k) (b.drop k) :=
  List.drop_zipWith

/-! ### Linearity (R201) -/

/-- Both the accumulator and the bits that select `v` add up; the sequence of `v` does not depend on them. -/
theorem gfmulLoop_xor (x y : Block) (n : Nat) (z w v : Block) :
    gfmulLoop (x ^^^ y) n (z ^^^ w) v = gfmulLoop x n z v ^^^ gfmulLoop y n w v := by
  induction n generalizing z w v with
  | zero => rfl
  | succ n ih =>
    have hselect : (if (x ^^^ y).getLsbD n then z ^^^ w ^^^ v else z ^^^ w) =
        (if x.getLsbD n then z ^^^ v else z) ^^^ (if y.getLsbD n then w ^^^ v else w) := by
      rw [BitVec.getLsbD_xor]
      cases x.getLsbD n <;> cases y.getLsbD n
      case false.false => rfl
      case false.true => exact BitVec.xor_assoc z w v
      case true.false =>
        change z ^^^ w ^^^ v = z ^^^ v ^^^ w
        ac_rfl
      case true.true =>
        calc z ^^^ w = z ^^^ w ^^^ (v ^^^ v) := by rw [BitVec.xor_self, BitVec.xor_zero]
          _ = z ^^^ v ^^^ (w ^^^ v) := by ac_rfl
    rw [gfmulLoop, hselect, ih]
    rfl

/-- Multiplication is linear in its first factor (R150). -/
theorem gfmul_xor (x y h : Block) : gfmul (x ^^^ y) h = gfmul x h ^^^ gfmul y h :=
  gfmulLoop_xor x y 128 0 0 h

/-- Strings of equal length are cut in the same places, and each round of the loop is linear. -/
theorem ghashBlocks_xor (h : Block) (f : Nat) {a b : Bytes} (hlen : a.length = b.length) (x y : Block) :
    ghashBlocks h (x ^^^ y) (chunksFuel 16 f (xorBytes a b)) =
      ghashBlocks h x (chunksFuel 16 f a) ^^^ ghashBlocks h y (chunksFuel 16 f b) := by
  induction f generalizing a b x y with
  | zero => rfl
  | succ f ih =>
    by_cases ha : a = []
    · have hb : b = [] := List.length_eq_zero_iff.mp (by rw [← hlen, ha, List.length_nil])
      subst ha hb
      rfl
    · have hpos : 0 < a.length := List.length_pos_iff.mpr ha
      have hb : b ≠ [] := List.ne_nil_of_length_pos (by omega)
      have hab : xorBytes a b ≠ [] := List.ne_nil_of_length_pos (by rw [xorBytes_length]; omega)
      have htake : (a.take 16).length = (b.take 16).length := by rw [List.length_take, List.length_take, hlen]
      have hdrop : (a.drop 16).length = (b.drop 16).length := by rw [List.length_drop, List.length_drop, hlen]
      have hround : gfmul (x ^^^ y ^^^ blockOfBytes (xorBytes (a.take 16) (b.take 16))) h =
          gfmul (x ^^^ blockOfBytes (a.take 16)) h ^^^ gfmul (y ^^^ blockOfBytes (b.take 16)) h := by
        rw [blockOfBytes_xorBytes htake, ← gfmul_xor]
        congr 1
        ac_rfl
      simp only [chunksFuel_succ 16 f ha, chunksFuel_succ 16 f hb, chunksFuel_succ 16 f hab, ghashBlocks_cons]
      rw [take_xorBytes, drop_xorBytes, hround, ih hdrop]

/-- Settles O39: padding commutes with exclusive-or, and the three padded strings are cut with the same fuel. -/
theorem ghashLinear : Obligations.GhashLinear := by
  intro h x y a b hlen
  have hpad : (pad16 a).length = (pad16 b).length := by rw [pad16_length, pad16_length, hlen]
  have hxor : (xorBytes (pad16 a) (pad16 b)).length = (pad16 b).length := by rw [xorBytes_length, hpad, min_self]
  simp only [ghashSeg_eq_ghashBlocks, pad16_xorBytes hlen, chunks, hxor, hpad]
  exact ghashBlocks_xor h _ hpad x y

end Sys2Proof.Machine
end

section
/-! Unit GH (spec/42_ghash.md R193 to R200), and the DESTROY commands of the other units. -/

namespace Sys2Proof.Machine

/-! ### The range check and the error of unit GH -/

theorem rangeCheck_of_inDmem {s : State} {a n : Nat} (h : inDmem s a n) (c : Cause) :
    (if !inRange s.cfg a n then some c else none) = none := by
  rw [(inRange_iff _ _ _).mpr h]
  rfl

theorem rangeCheck_of_not_inDmem {s : State} {a n : Nat} (h : ¬ inDmem s a n) (c : Cause) :
    (if !inRange s.cfg a n then some c else none) = some c := by
  rw [(inRange_false_iff s a n).mpr h]
  rfl

/-- GH.UPDATE checks the length first, then the range (R195). -/
theorem ghUpdateCheck_aligned {src len : Word} (h : len.toNat % 16 = 0) (s : State) :
    ghUpdateCheck src len s = if !inRange s.cfg src.toNat len.toNat then some .srcRange else none :=
  if_neg (not_not.mpr h)

theorem ghUpdateCheck_misaligned {src len : Word} (h : len.toNat % 16 ≠ 0) (s : State) :
    ghUpdateCheck src len s = some .lengthAlign :=
  if_pos h

/-- A failing check of a command of unit GH zeroizes the unit (R405, R410). -/
theorem exec_of_ghError {i : Instr} (hunit : i.unit = .gh) {s : State} {c : Cause} (h : commandCheck i s = some c) :
    exec i s = .next { s with gh := { H := 0, X := 0 }, result := 0, status := s.status.raised .gh c } := by
  rw [raises_of_check h, hunit]
  rfl

/-! ### The commands -/

/-- The one write of a command that passes its checks, in the terms of the claims (R21). -/
theorem wrote_commandEffect {s : State} (hwf : s.dmem.wf) (i : Instr) :
    wrote s (commandEffect i s) (destination i).1 (storedBytes i s) := by
  intro b
  rw [commandEffect_dmem]
  exact Memory.readByte_writeBytes hwf _ _ b

/-- Settles O34: the range check, then H from DMEM and X = 0. -/
theorem ghInitEffect : Obligations.GhInitEffect := by
  refine fun addr s => ⟨rfl, fun hrange => ?_, fun hout => ?_⟩
  · exact exec_of_passed (i := .ghInit addr) (rangeCheck_of_inDmem (.inr hrange) _)
  · exact exec_of_ghError (i := .ghInit addr) rfl (rangeCheck_of_not_inDmem (by omega) _)

/-- Settles O35: GH.SEGMENT checks the range, GH.UPDATE the length and then the range; their effect is the same. -/
theorem ghAbsorbEffect : Obligations.GhAbsorbEffect := by
  refine fun src len s => ⟨rfl, rfl, fun hrange => ?_, fun hout => ?_, fun halign hrange => ?_,
    fun halign hout => ?_, fun hodd => ?_⟩
  · exact exec_of_passed (i := .ghSegment src len) (rangeCheck_of_inDmem hrange _)
  · exact exec_of_ghError (i := .ghSegment src len) rfl (rangeCheck_of_not_inDmem hout _)
  · exact exec_of_passed (i := .ghUpdate src len)
      ((ghUpdateCheck_aligned halign s).trans (rangeCheck_of_inDmem hrange _))
  · exact exec_of_ghError (i := .ghUpdate src len) rfl
      ((ghUpdateCheck_aligned halign s).trans (rangeCheck_of_not_inDmem hout _))
  · exact exec_of_ghError (i := .ghUpdate src len) rfl (ghUpdateCheck_misaligned hodd s)

/-- Settles O36: the range check, then one write of a block at the destination. -/
theorem ghFinalAndRead : Obligations.GhFinalAndRead := by
  refine fun aadLen msgLen dst s hwf => ⟨rfl, rfl, fun hrange => ?_, fun hout i hi => ?_⟩
  · have hpass := rangeCheck_of_inDmem (s := s) (.inr hrange) .dstRange
    refine ⟨⟨_, exec_of_passed (i := .ghFinal aadLen msgLen dst) hpass, ?_, wrote_commandEffect hwf _⟩,
      ⟨_, exec_of_passed (i := .ghRead dst) hpass, ?_, wrote_commandEffect hwf _⟩⟩
    · simp only [commandEffect, finish_eq, State.storeBytes, GhUnit.final]
    · simp only [commandEffect, finish_eq, State.storeBytes]
  · have hfail := rangeCheck_of_not_inDmem (s := s) (a := dst.toNat) (n := 16) (by omega) .dstRange
    rcases List.mem_pair.mp hi with rfl | rfl
    · exact exec_of_ghError rfl hfail
    · exact exec_of_ghError rfl hfail

/-- Settles O37: the seven commands have no check, and each effect is an update of its own unit. -/
theorem resetAndDestroy : Obligations.ResetAndDestroy := fun _ =>
  ⟨rfl, rfl, rfl, rfl, rfl, rfl, rfl, exec_of_passed (i := .ghReset) rfl, exec_of_passed (i := .ghDestroy) rfl,
    exec_of_passed (i := .ctrDestroy) rfl, exec_of_passed (i := .gcmDestroy) rfl, exec_of_passed (i := .dgDestroy) rfl,
    exec_of_passed (i := .ssDestroy) rfl, exec_of_passed (i := .drbgDestroy) rfl⟩

end Sys2Proof.Machine
end

section
/-! The stream transforms are involutions: each XORs its input with a keystream that depends only on the key and the
counter (R217, R339). -/

namespace Sys2Proof.Machine

/-- A transform that keeps the length and XORs byte `j` with the keystream byte `ks j` is its own inverse. -/
theorem involutive_of_getD_eq_xor {f : Bytes → Bytes} {ks : Nat → Byte} (hlength : ∀ x, (f x).length = x.length)
    (hbyte : ∀ {x : Bytes} {j : Nat}, j < x.length → (f x).getD j 0 = x.getD j 0 ^^^ ks j) :
    Function.Involutive f := by
  intro x
  have hlength₂ : (f (f x)).length = x.length := (hlength (f x)).trans (hlength x)
  refine List.ext_getElem hlength₂ fun j hj₂ hj => ?_
  have hj₁ : j < (f x).length := (hlength x).symm ▸ hj
  calc (f (f x))[j] = (f (f x)).getD j 0 := (List.getD_eq_getElem _ _ hj₂).symm
    _ = x.getD j 0 ^^^ ks j ^^^ ks j := by rw [hbyte hj₁, hbyte hj]
    _ = x.getD j 0 := by rw [BitVec.xor_assoc, BitVec.xor_self, BitVec.xor_zero]
    _ = x[j] := List.getD_eq_getElem _ _ hj

theorem ctrStream_involutive (key : Bytes) (c : Block) : Function.Involutive fun x => (ctrStream key c x).1 :=
  involutive_of_getD_eq_xor (ctrStream_length key c) (ctrStream_getD key c)

theorem ssStream_involutive (rounds : Byte) (w : SalsaWords) : Function.Involutive fun x => (ssStream rounds w x).1 :=
  involutive_of_getD_eq_xor (ssStream_length rounds w) (ssStream_getD rounds w)

/-- Settles O43: both transforms XOR with a keystream, and the counter afterwards depends only on the length. -/
theorem streamInvolution : Obligations.StreamInvolution := by
  refine ⟨fun key c x => ⟨ctrStream_involutive key c x, ctrStream_length key c x, ?_⟩,
    fun rounds w x => ⟨ssStream_involutive rounds w x, ssStream_length rounds w x, ?_⟩⟩
  · rw [ctrStream_counter, ctrStream_counter, ctrStream_length]
  · rw [ssStream_words, ssStream_words, ssStream_length]

end Sys2Proof.Machine
end

section
/-! The next nonce of auto-increment (R247): the successor as a big-endian number, which fits the length of the nonce
unless every byte is ff. -/

namespace Sys2Proof.Machine

/-- A string with a byte other than ff is not the greatest number of its length (R18). -/
theorem leNat_succ_lt {s : Bytes} (h : ∃ b ∈ s, b ≠ 0xff) : leNat s + 1 < 256 ^ s.length := by
  induction s with
  | nil => simp at h
  | cons b s ih =>
    have hb : b.toNat < 256 := b.isLt
    rw [leNat, List.length_cons, Nat.pow_succ]
    rcases (List.exists_mem_cons_iff _ _ _).mp h with hne | htail
    · have hlt : b.toNat ≠ 255 := fun heq => hne (BitVec.eq_of_toNat_eq heq)
      have hs := leNat_lt s
      omega
    · have hs := ih htail
      omega

/-- Without overflow the nonce is advanced by one (R247). -/
theorem beNat_incNonce {nonce : Bytes} (h : ∃ b ∈ nonce, b ≠ 0xff) : beNat (incNonce nonce) = beNat nonce + 1 := by
  have hlt : beNat nonce + 1 < 256 ^ nonce.length := by
    simpa [beNat] using leNat_succ_lt (s := nonce.reverse) (by simpa using h)
  rw [incNonce, beNat_beBytes, Nat.mod_eq_of_lt hlt]

/-- Settles O51: the successor fits the length of the nonce, and no number is its own successor. -/
theorem autoIncrementNonce : Obligations.AutoIncrementNonce := by
  refine fun nonce => ⟨incNonce_length nonce, fun h => ⟨beNat_incNonce h, fun heq => ?_⟩⟩
  have hsucc := beNat_incNonce h
  rw [heq] at hsucc
  omega

end Sys2Proof.Machine
end

section
/-! Unit GCM after its start (spec/44_gcm.md R240 to R253): the tag step that GCM.FINAL and GCM.VERIFY share, their
checks, the comparison of tags, the transitions of the lifecycle, and the way back from a ciphertext. -/

namespace Sys2Proof.Machine

/-! ### The tag step (R246 to R248) -/

/-- A session that takes data is neither uninitialized nor finalized (R232). -/
theorem openPhase_ne {p : Phase} (h : p ∈ [.ready, .aadLoaded, .transforming]) : p ≠ .uninit ∧ p ≠ .finalized := by
  constructor <;> (rintro rfl; simp at h)

theorem GcmUnit.takeTag_of_finalized {u : GcmUnit} (hp : u.phase = .finalized) : u.takeTag = (u, u.tag) := if_pos hp

/-- The first tag of a session without auto-increment finalizes it (R248). -/
theorem GcmUnit.takeTag_of_not_autoInc {u : GcmUnit} (hp : u.phase ≠ .finalized) (hauto : u.autoInc = false) :
    u.takeTag.1 = u.calcTag := by
  simp [GcmUnit.takeTag, hp, hauto]

/-- The tag is the buffered one, or the checksum closed with the lengths and masked with the first block (R246). -/
theorem GcmUnit.takeTag_tag (u : GcmUnit) :
    u.takeTag.2 = if u.phase = .finalized then u.tag
      else aes u.key u.J0 ^^^ ghashFin u.H u.X u.aadSize.toNat u.msgSize.toNat := by
  unfold GcmUnit.takeTag
  split_ifs <;> rfl

/-- The next session: the setup of R235 with the same key and the next nonce, and the retained associated data absorbed
again (R247). -/
theorem GcmUnit.autoReinit_eq (u : GcmUnit) :
    u.autoReinit =
      { u.setup u.key (incNonce u.N) with
        X := if u.aadKept then ghashSeg (gcmSubkey u.key) 0 u.aadStore else 0
        aadSize := if u.aadKept then BitVec.ofNat 64 u.aadStore.length else 0
        phase := if u.aadKept then .aadLoaded else .ready } := by
  unfold GcmUnit.autoReinit
  split_ifs <;> rfl

/-- Where a tag takes the lifecycle (R232). -/
theorem GcmUnit.takeTag_phase (u : GcmUnit) :
    u.takeTag.1.phase = if u.phase = .finalized ∨ u.autoInc = false then .finalized
      else if u.aadKept then .aadLoaded else .ready := by
  by_cases hp : u.phase = .finalized
  · rw [GcmUnit.takeTag_of_finalized hp, if_pos (.inl hp), hp]
  · cases hauto : u.autoInc with
    | false => rw [GcmUnit.takeTag_of_not_autoInc hp hauto, if_pos (.inr rfl), GcmUnit.calcTag]
    | true =>
      rw [GcmUnit.takeTag_of_autoInc hp hauto, GcmUnit.autoReinit_eq, if_neg (not_or.mpr ⟨hp, nofun⟩)]
      rfl

theorem GcmUnit.nonceWraps_iff (u : GcmUnit) :
    u.nonceWraps = true ↔ u.phase ≠ .finalized ∧ u.autoInc = true ∧ ∀ b ∈ u.N, b = 0xff := by
  simp [GcmUnit.nonceWraps, and_assoc]

/-- The nonce need not be advanced, or it can be (R248). -/
theorem GcmUnit.nonceWraps_false_iff (u : GcmUnit) :
    u.nonceWraps = false ↔ u.phase = .finalized ∨ u.autoInc = false ∨ ∃ b ∈ u.N, b ≠ 0xff := by
  rw [← Bool.not_eq_true, GcmUnit.nonceWraps_iff]
  simp only [ne_eq, not_and_or, not_not, Bool.not_eq_true, not_forall, exists_prop]

/-! ### The checks of GCM.FINAL and GCM.VERIFY (R248, R250) -/

/-- The checks that the two commands share, but for the cause of a range outside DMEM. -/
def tagCheck (rangeCause : Cause) (base offset : Word) (tagLen : Byte) (s : State) : Option Cause :=
  if tagLen.toNat < 12 ∨ 16 < tagLen.toNat then some .tagLen
  else if !inRange s.cfg (tagAddress base offset) tagLen.toNat then some rangeCause
  else if s.gcm.nonceWraps then some .nonceWrap
  else none

section
variable {base offset : Word} {tagLen : Byte} {s : State}

theorem gcmFinalCheck_inSession (hp : s.gcm.phase ≠ .uninit) :
    gcmFinalCheck base offset tagLen s = tagCheck .dstRange base offset tagLen s :=
  if_neg hp

theorem gcmVerifyCheck_encrypting (hp : s.gcm.phase ≠ .uninit) (henc : s.gcm.enc = true) :
    gcmVerifyCheck base offset tagLen s = some .verifyEncrypt := by
  rw [gcmVerifyCheck, if_neg hp, if_pos henc]

theorem gcmVerifyCheck_decrypting (hp : s.gcm.phase ≠ .uninit) (henc : s.gcm.enc = false) :
    gcmVerifyCheck base offset tagLen s = tagCheck .srcRange base offset tagLen s := by
  rw [gcmVerifyCheck, if_neg hp, henc]
  rfl

theorem tagCheck_of_length (h : tagLen.toNat < 12 ∨ 16 < tagLen.toNat) (c : Cause) :
    tagCheck c base offset tagLen s = some .tagLen :=
  if_pos h

theorem tagCheck_of_range (hmin : 12 ≤ tagLen.toNat) (hmax : tagLen.toNat ≤ 16)
    (hout : s.cfg.dmemSize < base.toNat + offset.toNat + tagLen.toNat) (c : Cause) :
    tagCheck c base offset tagLen s = some c := by
  have hrange : inRange s.cfg (tagAddress base offset) tagLen.toNat = false := by
    rw [inRange_false_iff, tagAddress]
    omega
  rw [tagCheck, if_neg (by omega), hrange]
  rfl

/-- With a legal tag length and range only the nonce is left to check (R248). -/
theorem tagCheck_of_legal (hmin : 12 ≤ tagLen.toNat) (hmax : tagLen.toNat ≤ 16)
    (hin : base.toNat + offset.toNat + tagLen.toNat ≤ s.cfg.dmemSize) (c : Cause) :
    tagCheck c base offset tagLen s = if s.gcm.nonceWraps then some .nonceWrap else none := by
  have hrange : inRange s.cfg (tagAddress base offset) tagLen.toNat = true := (inRange_iff _ _ _).mpr (.inr hin)
  rw [tagCheck, if_neg (by omega), hrange]
  rfl

/-- A buffered tag, or a nonce that stays or can be advanced, passes (R248). -/
theorem tagCheck_of_advance (hmin : 12 ≤ tagLen.toNat) (hmax : tagLen.toNat ≤ 16)
    (hin : base.toNat + offset.toNat + tagLen.toNat ≤ s.cfg.dmemSize)
    (h : s.gcm.phase = .finalized ∨ s.gcm.autoInc = false ∨ ∃ b ∈ s.gcm.N, b ≠ 0xff) (c : Cause) :
    tagCheck c base offset tagLen s = none := by
  rw [tagCheck_of_legal hmin hmax hin, s.gcm.nonceWraps_false_iff.mpr h]
  rfl

/-- The all-ff nonce cannot be advanced (R248). -/
theorem tagCheck_of_wrap (hmin : 12 ≤ tagLen.toNat) (hmax : tagLen.toNat ≤ 16)
    (hin : base.toNat + offset.toNat + tagLen.toNat ≤ s.cfg.dmemSize) (hp : s.gcm.phase ≠ .finalized)
    (hauto : s.gcm.autoInc = true) (hff : ∀ b ∈ s.gcm.N, b = 0xff) (c : Cause) :
    tagCheck c base offset tagLen s = some .nonceWrap :=
  (tagCheck_of_legal hmin hmax hin c).trans (if_pos (s.gcm.nonceWraps_iff.mpr ⟨hp, hauto, hff⟩))

/-- GCM.FINAL that passes its checks: the unit after the tag step, and the first bytes of the tag at the effective
address (R248). -/
theorem exec_gcmFinal_of_passed (hwf : s.dmem.wf) (hp : s.gcm.phase ≠ .uninit)
    (h : tagCheck .dstRange base offset tagLen s = none) {v : GcmUnit} {tag : Block}
    (hv : s.gcm.takeTag = (v, tag)) :
    ∃ t, exec (.gcmFinal base offset tagLen) s = .next t ∧
      t = { s with gcm := v, dmem := t.dmem, result := 0, status := s.status.ended false } ∧
      wrote s t (base.toNat + offset.toNat) ((blockBytes tag).take tagLen.toNat) := by
  have hwrote := wrote_commandEffect hwf (.gcmFinal base offset tagLen)
  obtain ⟨rfl, rfl⟩ := Prod.mk.inj hv
  exact ⟨_, exec_of_passed ((gcmFinalCheck_inSession hp).trans h), rfl, hwrote⟩

end

/-! ### The comparison of tags (R249) -/

theorem foldl_or_eq_zero_iff (s : Bytes) (d : Byte) : s.foldl (· ||| ·) d = 0 ↔ d = 0 ∧ ∀ b ∈ s, b = 0 := by
  induction s generalizing d with
  | nil => simp
  | cons b s ih =>
    have hor : d ||| b = 0 ↔ d = 0 ∧ b = 0 := BitVec.or_eq_zero_iff
    rw [List.foldl_cons, ih, hor, List.forall_mem_cons, and_assoc]

theorem xorBytes_all_zero_iff {a b : Bytes} (hlen : a.length = b.length) : (∀ d ∈ xorBytes a b, d = 0) ↔ a = b := by
  induction a generalizing b with
  | nil => simp [xorBytes, List.length_eq_zero_iff.mp hlen.symm]
  | cons x a ih =>
    cases b with
    | nil => simp at hlen
    | cons y b =>
      have hcons : xorBytes (x :: a) (y :: b) = (x ^^^ y) :: xorBytes a b := rfl
      have hxor : x ^^^ y = 0 ↔ x = y := BitVec.xor_eq_zero_iff
      rw [hcons, List.forall_mem_cons, hxor, ih (Nat.succ.inj hlen), List.cons.injEq]

/-- Or-ing the differences together is comparing the first `n` bytes. -/
theorem tagEqual_eq_decide {t e : Bytes} {n : Nat} (ht : n ≤ t.length) (he : e.length = n) :
    tagEqual t e n = decide (t.take n = e) := by
  have hlen : (t.take n).length = e.length := by rw [List.length_take, he, Nat.min_eq_left ht]
  rw [tagEqual, List.take_of_length_le he.le, Bool.beq_eq_decide_eq]
  exact decide_eq_decide.mpr (by rw [foldl_or_eq_zero_iff, xorBytes_all_zero_iff hlen, eq_self, true_and])

/-! ### The way back from a ciphertext (R253) -/

/-- The direction is no part of the tag (R246). -/
theorem GcmUnit.takeTag_setEnc (u : GcmUnit) (enc : Bool) :
    (GcmUnit.takeTag { u with enc := enc }).2 = u.takeTag.2 := by
  rw [GcmUnit.takeTag_tag, GcmUnit.takeTag_tag]

/-- Decrypting what was encrypted: the keystream cancels, and both directions hash the ciphertext (R241, R242). -/
theorem GcmUnit.xform_decrypt {u : GcmUnit} (henc : u.enc = true) (p : Bytes) :
    GcmUnit.xform { u with enc := false } (u.xform p).2 = ({ (u.xform p).1 with enc := false }, p) := by
  have hback : (ctrStream u.key u.c (ctrStream u.key u.c p).1).1 = p := ctrStream_involutive u.key u.c p
  simp [GcmUnit.xform, henc, hback, ctrStream_counter, ctrStream_length]

/-- Settles O50: the two sessions differ in their direction only, until the ciphertext is transformed back. -/
theorem gcmRoundTrip : Obligations.GcmRoundTrip := by
  intro key nonce aad p autoInc keepAd n hn e d
  have hd : d = ({ e.1 with enc := false }, p) :=
    GcmUnit.xform_decrypt (u := (GcmUnit.reset.init true autoInc keepAd ⟨key, nonce, []⟩).absorbAad aad) rfl p
  rw [hd]
  refine ⟨rfl, rfl, ?_⟩
  have hlen : n ≤ (blockBytes e.1.takeTag.2).length := by rwa [blockBytes_length]
  rw [GcmUnit.takeTag_setEnc, tagEqual_eq_decide hlen (List.length_take_of_le hlen), decide_eq_true rfl]

/-! ### GCM.AAD (R240) -/

theorem gcmAadCheck_of_late {s : State} (hp : s.gcm.phase = .aadLoaded ∨ s.gcm.phase = .transforming)
    (src len : Word) : gcmAadCheck src len s = some .aadOrder := by
  rcases hp with hp | hp <;> simp [gcmAadCheck, hp]

theorem gcmAadCheck_of_finalized {s : State} (hp : s.gcm.phase = .finalized) (src len : Word) :
    gcmAadCheck src len s = some .afterFinalize := by
  simp [gcmAadCheck, hp]

theorem gcmAadCheck_ready {s : State} (hp : s.gcm.phase = .ready) (src len : Word) :
    gcmAadCheck src len s =
      if ¬ (s.gcm.preserveAd = true → len.toNat ≤ s.cfg.aadMax) then some .aadTooLong
      else if ¬ inDmem s src.toNat len.toNat then some .srcRange
      else none := by
  simp [gcmAadCheck, hp, inRange_false_iff, Classical.not_imp]

/-- Settles O45: the length check of KEEPAD, the range check, then the associated data absorbed. -/
theorem gcmAadEffect : Obligations.GcmAadEffect := by
  refine fun src len s hp => ⟨fun hfits hrange => ?_, fun hlong => ?_, fun hfits hout => ?_⟩
  · have hpass : commandCheck (.gcmAad src len) s = none := by
      rw [commandCheck, gcmAadCheck_ready hp, if_neg (not_not.mpr hfits), if_neg (not_not.mpr hrange)]
    rw [exec_of_passed hpass, commandEffect, GcmUnit.absorbAad, operand_length]
    rfl
  · exact raises_of_check ((gcmAadCheck_ready hp src len).trans (if_pos hlong))
  · exact raises_of_check
      ((gcmAadCheck_ready hp src len).trans ((if_neg (not_not.mpr hfits)).trans (if_pos hout)))

/-! ### The lifecycle (R232) -/

theorem gcmXformCheck_of_finalized {s : State} (hp : s.gcm.phase = .finalized) (src dst len : Word) :
    gcmXformCheck src dst len s = some .afterFinalize := by
  simp [gcmXformCheck, hp]

theorem gcmXformCheck_of_tail {s : State} (huninit : s.gcm.phase ≠ .uninit) (hfinal : s.gcm.phase ≠ .finalized)
    (htail : s.gcm.tail = true) (src dst len : Word) : gcmXformCheck src dst len s = some .afterTail := by
  rw [gcmXformCheck, if_neg huninit, if_neg hfinal, if_pos htail]

/-- A command that ends without an error has passed its checks and had its effect (R405). -/
theorem effect_of_exec_ok {i : Instr} {s t : State} (h : exec i s = .next t) (hok : t.status.err = false) :
    commandCheck i s = none ∧ t = commandEffect i s := by
  rcases exec_cases h with ⟨c, -, rfl⟩ | heffect
  · cases hok
  · exact heffect

/-- Settles O49: the refusals are the checks on the phase, and each effect sets the phase of the table. -/
theorem gcmTransitions : Obligations.GcmTransitions := by
  refine fun s t a b n tl e ai ka => ⟨fun hp => raises_of_check (gcmAadCheck_of_late hp a n),
    fun hp => ⟨raises_of_check (gcmAadCheck_of_finalized hp a n),
      raises_of_check (gcmXformCheck_of_finalized hp a b n)⟩,
    fun huninit hfinal htail => raises_of_check (gcmXformCheck_of_tail huninit hfinal htail a b n),
    fun hp henc => raises_of_check (gcmVerifyCheck_encrypting hp henc), fun h hok => ?_, fun h hok => ?_,
    fun h hok => ?_, fun h hok => ?_, fun h => ?_⟩
  · obtain ⟨-, rfl⟩ := effect_of_exec_ok h hok
    rfl
  · obtain ⟨hpass, rfl⟩ := effect_of_exec_ok h hok
    exact ⟨(gcmAadCheck_none hpass).1, rfl⟩
  · obtain ⟨-, rfl⟩ := effect_of_exec_ok h hok
    rfl
  · rcases h with h | h
    · obtain ⟨-, rfl⟩ := effect_of_exec_ok h hok
      exact s.gcm.takeTag_phase
    · obtain ⟨-, rfl⟩ := effect_of_exec_ok h hok
      exact s.gcm.takeTag_phase
  · cases h
    rfl

end Sys2Proof.Machine

/-! The names of the two statements are taken in `Sys2Proof.Machine` by the effects of the model. -/

namespace Sys2Proof.Machine.Settled

/-- Settles O47: after the shared checks the phase, the auto-increment and the nonce decide between the buffered tag,
the end of the session, the next session, and NONCE_WRAP. -/
theorem gcmFinalEffect : Obligations.GcmFinalEffect := by
  refine ⟨fun base offset tagLen s hwf hmin hmax hin => ⟨fun hp => ?_, fun hp hauto => ?_, fun hp hauto hne => ?_,
    fun hp hauto hff => ?_⟩, fun base offset tagLen s hp => ⟨fun hlen => ?_, fun hmin hmax hout => ?_⟩⟩
  · exact exec_gcmFinal_of_passed hwf (by simp [hp]) (tagCheck_of_advance hmin hmax hin (.inl hp) _)
      (GcmUnit.takeTag_of_finalized hp)
  · obtain ⟨huninit, hfinal⟩ := openPhase_ne hp
    have hunit := GcmUnit.takeTag_of_not_autoInc hfinal hauto
    exact exec_gcmFinal_of_passed hwf huninit (tagCheck_of_advance hmin hmax hin (.inr (.inl hauto)) _)
      (Prod.ext hunit (s.gcm.takeTag_tag.trans (if_neg hfinal)))
  · obtain ⟨huninit, hfinal⟩ := openPhase_ne hp
    have hunit := (GcmUnit.takeTag_of_autoInc hfinal hauto).trans s.gcm.calcTag.autoReinit_eq
    exact exec_gcmFinal_of_passed hwf huninit (tagCheck_of_advance hmin hmax hin (.inr (.inr hne)) _)
      (Prod.ext hunit (s.gcm.takeTag_tag.trans (if_neg hfinal)))
  · obtain ⟨huninit, hfinal⟩ := openPhase_ne hp
    exact raises_of_check
      ((gcmFinalCheck_inSession huninit).trans (tagCheck_of_wrap hmin hmax hin hfinal hauto hff _))
  · exact raises_of_check ((gcmFinalCheck_inSession hp).trans (tagCheck_of_length hlen _))
  · exact raises_of_check ((gcmFinalCheck_inSession hp).trans (tagCheck_of_range hmin hmax hout _))

/-- Settles O48: GCM.VERIFY shares the checks and the tag step with GCM.FINAL, and ends with the comparison. -/
theorem gcmVerifyEffect : Obligations.GcmVerifyEffect := by
  refine ⟨fun base offset tagLen s hp henc hmin hmax hin hnonce => ?_, fun base offset tagLen s hp henc =>
    ⟨fun hlen => ?_, fun hmin hmax => ⟨fun hout => ?_, fun hin hfinal hauto hff => ?_⟩⟩⟩
  · have hpass := tagCheck_of_advance hmin hmax hin hnonce
    have hverdict : gcmVerdict base offset tagLen s = decide ((blockBytes s.gcm.takeTag.2).take tagLen.toNat =
        s.dmem.readBytes (tagAddress base offset) tagLen.toNat) :=
      tagEqual_eq_decide (hmax.trans_eq (blockBytes_length _).symm) (Memory.readBytes_length _ _ _)
    refine ⟨_, exec_of_passed ((gcmVerifyCheck_decrypting hp henc).trans (hpass _)), ?_,
      _, exec_of_passed ((gcmFinalCheck_inSession hp).trans (hpass _)), rfl⟩
    rw [← s.gcm.takeTag_tag, ← tagAddress, ← hverdict]
    rfl
  · exact raises_of_check ((gcmVerifyCheck_decrypting hp henc).trans (tagCheck_of_length hlen _))
  · exact raises_of_check ((gcmVerifyCheck_decrypting hp henc).trans (tagCheck_of_range hmin hmax hout _))
  · exact raises_of_check
      ((gcmVerifyCheck_decrypting hp henc).trans (tagCheck_of_wrap hmin hmax hin hfinal hauto hff _))

end Sys2Proof.Machine.Settled
end

section
/-! The loop of R291 in unit DG: feeding a string is feeding its bytes one by one, so that a message may be cut
anywhere (R299). -/

namespace Sys2Proof.Machine

theorem fanoutLegal_iff (p : Params) (n : Nat) :
    fanoutLegal p n = true ↔ n = 1 ∨ (2 ≤ n ∧ n % 2 = 0 ∧ n ≤ p.nproc) := by
  simp [fanoutLegal, and_assoc]

/-- A legal fanout is at least 1 (R284). -/
theorem DgUnit.started.P_pos {p : Params} {u : DgUnit} (h : u.started p) : 0 < u.P := by
  obtain ⟨-, hfanout, -⟩ := h
  have hcases := (fanoutLegal_iff p u.P).mp hfanout
  omega

theorem dgBs_pos (alg : HashAlg) : 0 < dgBs alg := by cases alg <;> decide

theorem DgUnit.started.W_pos {p : Params} {u : DgUnit} (h : u.started p) : 0 < u.W :=
  Nat.mul_pos h.P_pos (dgBs_pos u.alg)

/-- Only a full buffer is dispatched (R291). -/
theorem DgUnit.makeRoom_of_room {u : DgUnit} (h : u.buf.length < 2 * u.W) : u.makeRoom = u := if_neg h.ne

theorem DgUnit.makeRoom_of_full {u : DgUnit} (h : u.buf.length = 2 * u.W) : u.makeRoom = u.dispatch := if_pos h

/-- There is room for a byte in a unit that has made room. -/
theorem DgUnit.makeRoom_room {p : Params} {u : DgUnit} (h : u.started p) : u.makeRoom.buf.length < 2 * u.W := by
  obtain ⟨-, -, -, -, -, -, -, -, hbuf, -⟩ := id h
  have hW := h.W_pos
  rcases hbuf.lt_or_eq with hroom | hfull
  · rwa [DgUnit.makeRoom_of_room hroom]
  · rw [DgUnit.makeRoom_of_full hfull, DgUnit.dispatch, List.length_drop]
    omega

/-- Unit DG fed with one byte (R291). -/
def DgUnit.push (u : DgUnit) (b : Byte) : DgUnit := { u.makeRoom with buf := u.makeRoom.buf ++ [b] }

/-- Bytes that fit into the buffer are appended to it. -/
theorem DgUnit.foldl_push_of_fits {u : DgUnit} {data : Bytes} (h : u.buf.length + data.length ≤ 2 * u.W) :
    data.foldl DgUnit.push u = { u with buf := u.buf ++ data } := by
  induction data generalizing u with
  | nil => simp
  | cons b data ih =>
    rw [List.length_cons] at h
    have hpush : u.push b = { u with buf := u.buf ++ [b] } := by
      rw [DgUnit.push, DgUnit.makeRoom_of_room (by omega)]
    rw [List.foldl_cons, hpush, ih]
    · simp
    · rw [List.length_append, List.length_singleton]
      change _ ≤ 2 * u.W
      omega

/-- Room is made before the first byte in any case. -/
theorem DgUnit.foldl_push_makeRoom {p : Params} {u : DgUnit} (h : u.started p) {data : Bytes} (hdata : data ≠ []) :
    data.foldl DgUnit.push u.makeRoom = data.foldl DgUnit.push u := by
  have hroom : u.makeRoom.makeRoom = u.makeRoom :=
    DgUnit.makeRoom_of_room (by rw [DgUnit.makeRoom_W]; exact DgUnit.makeRoom_room h)
  cases data with
  | nil => exact absurd rfl hdata
  | cons b data => rw [List.foldl_cons, List.foldl_cons, DgUnit.push, DgUnit.push, hroom]

/-- The loop of R291 takes the bytes one after the other; its rounds only group them. -/
theorem DgUnit.feed_eq_foldl {p : Params} (fuel : Nat) {u : DgUnit} (h : u.started p) {data : Bytes}
    (hfuel : data.length ≤ fuel) : DgUnit.feed fuel u data = data.foldl DgUnit.push u := by
  induction fuel generalizing u data with
  | zero =>
    obtain rfl := List.length_eq_zero_iff.mp (Nat.le_zero.mp hfuel)
    rfl
  | succ fuel ih =>
    rcases eq_or_ne data [] with rfl | hdata
    · rfl
    · have hroom := DgUnit.makeRoom_room h
      have hpos := List.length_pos_iff.mpr hdata
      rw [DgUnit.feed_succ fuel u (by simpa using hdata), ← DgUnit.foldl_push_makeRoom h hdata]
      generalize hk : min data.length (2 * u.W - u.makeRoom.buf.length) = k
      have hfits : (data.take k).length ≤ 2 * u.makeRoom.W - u.makeRoom.buf.length := by
        rw [List.length_take, DgUnit.makeRoom_W]
        omega
      rw [ih (DgUnit.append_started (DgUnit.makeRoom_started h) hfits) (by rw [List.length_drop]; omega),
        ← DgUnit.foldl_push_of_fits (by rw [DgUnit.makeRoom_W] at hfits ⊢; omega), ← List.foldl_append,
        List.take_append_drop]

theorem DgUnit.update_eq_foldl {p : Params} {u : DgUnit} (h : u.started p) (data : Bytes) :
    u.update data = data.foldl DgUnit.push u :=
  DgUnit.feed_eq_foldl _ h le_rfl

/-- Cutting the message anywhere (R299). -/
theorem DgUnit.update_append {p : Params} {u : DgUnit} (h : u.started p) (a b : Bytes) :
    u.update (a ++ b) = (u.update a).update b := by
  rw [DgUnit.update_eq_foldl (DgUnit.update_started h a), DgUnit.update_eq_foldl h, DgUnit.update_eq_foldl h,
    List.foldl_append]

end Sys2Proof.Machine
end

section
/-! The commands of unit DG: the checks in their order and the effects (R288, R291, R292, R296, R297). -/

namespace Sys2Proof.Machine

/-! ### DG.UPDATE, DG.FINAL and DG.COMPUTE in phase Ready -/

section
variable {s : State} (hp : s.dg.phase = .ready)
include hp

theorem dgUpdateCheck_ready (src len : Word) :
    dgUpdateCheck src len s = if !inRange s.cfg src.toNat len.toNat then some .srcRange else none := by
  rw [dgUpdateCheck, if_neg (not_not.mpr hp)]

theorem dgFinalCheck_ready (dst : Word) :
    dgFinalCheck dst s = if !inRange s.cfg dst.toNat 64 then some .dstRange else none := by
  rw [dgFinalCheck, if_neg (not_not.mpr hp)]

/-- DG.COMPUTE checks the source first, then the destination (R297). -/
theorem dgComputeCheck_ready (src dst len : Word) :
    dgComputeCheck src dst len s =
      if !inRange s.cfg src.toNat len.toNat then some .srcRange
      else if !inRange s.cfg dst.toNat 64 then some .dstRange else none := by
  rw [dgComputeCheck, if_neg (not_not.mpr hp)]

theorem exec_dgUpdate_of_inDmem {src len : Word} (h : inDmem s src.toNat len.toNat) :
    exec (.dgUpdate src len) s = .next (finish 0 { s with dg := s.dg.update (operand s src len) }) :=
  exec_of_passed (i := .dgUpdate src len) ((dgUpdateCheck_ready hp src len).trans (rangeCheck_of_inDmem h _))

theorem exec_dgFinal_of_inDmem {dst : Word} (h : dst.toNat + 64 ≤ s.cfg.dmemSize) :
    exec (.dgFinal dst) s = .next (dgFinalize s.dg dst s) :=
  exec_of_passed (i := .dgFinal dst) ((dgFinalCheck_ready hp dst).trans (rangeCheck_of_inDmem (.inr h) _))

theorem exec_dgCompute_of_inDmem {src dst len : Word} (hsrc : inDmem s src.toNat len.toNat)
    (hdst : dst.toNat + 64 ≤ s.cfg.dmemSize) :
    exec (.dgCompute src dst len) s = .next (dgFinalize (s.dg.update (operand s src len)) dst s) := by
  refine exec_of_passed (i := .dgCompute src dst len) ((dgComputeCheck_ready hp src dst len).trans ?_)
  rw [(inRange_iff _ _ _).mpr hsrc]
  exact rangeCheck_of_inDmem (.inr hdst) _

end

/-- Feeding the unit leaves its phase alone. -/
theorem DgUnit.feed_phase (fuel : Nat) (u : DgUnit) (data : Bytes) : (DgUnit.feed fuel u data).phase = u.phase := by
  induction fuel generalizing u data with
  | zero => rfl
  | succ fuel ih =>
    by_cases hdata : data.isEmpty = true
    · rw [DgUnit.feed, if_pos hdata]
    · rw [DgUnit.feed_succ fuel u hdata, ih]
      unfold DgUnit.makeRoom
      split_ifs <;> rfl

/-- Settles O53: the range check, then the bytes to the unit, which takes them one by one. -/
theorem dgUpdateEffect : Obligations.DgUpdateEffect := by
  refine ⟨fun src len s hp => ⟨fun hrange => exec_dgUpdate_of_inDmem hp hrange, fun hout => ?_⟩,
    fun p u a b h => DgUnit.update_append h a b⟩
  have hcheck : commandCheck (.dgUpdate src len) s = some .srcRange :=
    (dgUpdateCheck_ready hp src len).trans (rangeCheck_of_not_inDmem hout _)
  exact raises_of_check hcheck

/-- Settles O54: the range checks, then the digest to DMEM; DG.COMPUTE is the effect of DG.UPDATE, then that of
DG.FINAL. -/
theorem dgFinalResetCompute : Obligations.DgFinalResetCompute := by
  refine ⟨fun dst s hwf hp hdst => ?_, fun s hp => ?_, fun src dst len s hwf hp hsrc hdst => ?_,
    fun src dst len s hp => ⟨fun hout => ?_, fun hout => ?_, fun hsrc hout => ?_⟩⟩
  · exact ⟨_, exec_dgFinal_of_inDmem hp hdst, rfl, wrote_commandEffect hwf (.dgFinal dst)⟩
  · exact exec_of_passed (i := .dgReset) (if_neg (not_not.mpr hp))
  · have hready : (s.dg.update (operand s src len)).phase = .ready := (DgUnit.feed_phase _ _ _).trans hp
    exact ⟨_, _, exec_dgUpdate_of_inDmem hp hsrc, exec_dgFinal_of_inDmem hready hdst, rfl,
      exec_dgCompute_of_inDmem hp hsrc hdst⟩
  · have hcheck : commandCheck (.dgFinal dst) s = some .dstRange :=
      (dgFinalCheck_ready hp dst).trans (rangeCheck_of_not_inDmem (by omega) _)
    exact raises_of_check hcheck
  · have hcheck : commandCheck (.dgCompute src dst len) s = some .srcRange := by
      rw [commandCheck, dgComputeCheck_ready hp, (inRange_false_iff _ _ _).mpr hout]
      rfl
    exact raises_of_check hcheck
  · have hcheck : commandCheck (.dgCompute src dst len) s = some .dstRange := by
      rw [commandCheck, dgComputeCheck_ready hp, (inRange_iff _ _ _).mpr hsrc]
      exact rangeCheck_of_not_inDmem (by omega) _
    exact raises_of_check hcheck

end Sys2Proof.Machine
end

section
/-! DG.INIT: the tree-parameter record, serialized and parsed, and the checks on it (R283, R284, R288). -/

namespace Sys2Proof.Machine

/-! ### The record (R283) -/

/-- A little-endian number of at most 32 bits is a word (R86). -/
theorem le32_toNat {v : Bytes} (h : v.length ≤ 4) : (le32 v).toNat = leNat v :=
  (BitVec.toNat_ofNat _ _).trans (Nat.mod_eq_of_lt ((leNat_lt v).trans_le (Nat.pow_le_pow_right (by decide) h)))

theorem le64_toNat {v : Bytes} (h : v.length ≤ 8) : (le64 v).toNat = leNat v :=
  (BitVec.toNat_ofNat _ _).trans (Nat.mod_eq_of_lt ((leNat_lt v).trans_le (Nat.pow_le_pow_right (by decide) h)))

theorem le32_leBytes (w : Word) : le32 (leBytes 4 w.toNat) = w := by
  have hw := w.isLt
  apply BitVec.eq_of_toNat_eq
  rw [le32_toNat (by simp), leNat_leBytes]
  exact Nat.mod_eq_of_lt hw

theorem parseDgRecord_leafLen (r : Bytes) : (parseDgRecord r).leafLen.toNat = leNat (slice r 4 8) :=
  le32_toNat (by rw [slice_length]; omega)

theorem parseDgRecord_nodeOffset (r : Bytes) : (parseDgRecord r).nodeOffset.toNat = leNat (slice r 8 16) :=
  le64_toNat (by rw [slice_length]; omega)

/-- A serialized record parses to its parts (R283). -/
theorem parseDgRecord_recordBytes (prm : DgPrm) (key : Bytes) :
    parseDgRecord (recordBytes prm key) =
      { digestLen := prm.digestLen, keyLen := prm.keyLen, fanout := prm.fanout, depth := prm.depth,
        leafLen := prm.leafLen, nodeOffset := 0, nodeDepth := 0, innerLen := prm.innerLen,
        threadCount := prm.threadCount, key := key } := by
  have hleaf : slice (recordBytes prm key) 4 8 = leBytes 4 prm.leafLen.toNat := rfl
  have hnode : slice (recordBytes prm key) 8 16 = leBytes 8 0 := rfl
  rw [parseDgRecord, hleaf, hnode, le32_leBytes]
  rfl

theorem recordBytes_length (prm : DgPrm) (key : Bytes) : (recordBytes prm key).length = 19 + key.length := by
  simp [recordBytes, dgPB]
  omega

/-! ### The checks, in the terms of the claim -/

/-- The block size, as the claims write it (R280). -/
theorem dgBs_eq_ite (alg : HashAlg) : dgBs alg = if alg = .blake2b then 128 else 72 := by cases alg <;> rfl

theorem dgRecordCheck_eq (p : Params) (alg : HashAlg) (n : Nat) (r : DgRecord) :
    dgRecordCheck p alg n r =
      if r.digestLen.toNat ≠ 64 then some .dgDigestLen
      else if 64 < r.keyLen.toNat ∨ (alg = .keccak ∧ r.keyLen.toNat ≠ 0) then some .keyLen
      else if n ≠ 19 + r.keyLen.toNat then some .containerLen
      else if r.fanout.toNat ≠ 1 ∧ (r.fanout.toNat < 2 ∨ r.fanout.toNat % 2 = 1 ∨ p.nproc < r.fanout.toNat) then
        some .parDegree
      else if r.leafLen.toNat % (if alg = .blake2b then 128 else 72) ≠ 0 then some .dgLeafLen
      else if r.nodeOffset.toNat ≠ 0 ∨ r.nodeDepth.toNat ≠ 0 then some .dgNode
      else if alg = .keccak ∧ r.fanout.toNat = 1 ∧
        (r.depth.toNat ≠ 1 ∨ r.leafLen.toNat ≠ 0 ∨ r.innerLen.toNat ≠ 0 ∨ r.threadCount.toNat ≠ 0) then
        some .dgSeqParams
      else none := by
  have hfanout : (!fanoutLegal p r.fanout.toNat) = true ↔
      r.fanout.toNat ≠ 1 ∧ (r.fanout.toNat < 2 ∨ r.fanout.toNat % 2 = 1 ∨ p.nproc < r.fanout.toNat) := by
    rw [Bool.not_eq_true', ← Bool.not_eq_true, fanoutLegal_iff]
    omega
  have hleaf : r.leafLen.toNat ≠ 0 ∧ r.leafLen.toNat % dgBs alg ≠ 0 ↔ r.leafLen.toNat % dgBs alg ≠ 0 :=
    and_iff_right_of_imp fun h hzero => h (by rw [hzero, Nat.zero_mod])
  simp only [dgRecordCheck, hfanout, ne_eq, ← BitVec.toNat_inj, ← dgBs_eq_ite] at hleaf ⊢
  simp only [BitVec.ofNat_eq_ofNat, BitVec.toNat_ofNat, Nat.reducePow, Nat.reduceMod, hleaf]

/-! ### The command -/

/-- With a serialized record in DMEM the checks are those on its parts (R283, R288). -/
theorem dgInitCheck_record {alg : HashAlg} {addr len : Word} {s : State} {prm : DgPrm} {key : Bytes}
    (h : holds s addr len (recordBytes prm key)) :
    parseDgRecord (operand s addr len) = parseDgRecord (recordBytes prm key) ∧
      dgInitCheck alg addr len s =
        dgRecordCheck s.cfg alg (19 + key.length) (parseDgRecord (recordBytes prm key)) := by
  obtain ⟨hlen, hrange, hbytes⟩ := h
  have hoperand : operand s addr len = recordBytes prm key := by rw [operand, hlen, hbytes]
  have hin : inRange s.cfg addr.toNat (recordBytes prm key).length = true := (inRange_iff _ _ _).mpr (.inr hrange)
  refine ⟨congrArg parseDgRecord hoperand, ?_⟩
  rw [dgInitCheck, hoperand, hlen, hin, recordBytes_length]
  exact if_neg (Nat.not_lt.mpr (Nat.le_add_right 19 key.length))

/-- An error of unit DG zeroizes the unit (R410). -/
theorem raiseError_dg (c : Cause) (s : State) :
    raiseError .dg c s = { s with dg := DgUnit.reset, result := 0, status := s.status.raised .dg c } :=
  rfl

/-- A record that was serialized initializes the unit with its parts and an empty message (R288). -/
theorem DgUnit.init_recordBytes (alg : HashAlg) (prm : DgPrm) (key : Bytes) :
    DgUnit.init alg (parseDgRecord (recordBytes prm key)) =
      { phase := .ready, alg := alg, prm := prm, key := key, buf := [],
        leaves := (List.range prm.fanout.toNat).map (leafStart alg prm) } := by
  rw [parseDgRecord_recordBytes]
  rfl

/-- A Keccak leaf takes its parameter block first, in a tree only (R289). -/
theorem leafStart_keccak {prm : DgPrm} (hfanout : 0 < prm.fanout.toNat) :
    leafStart .keccak prm = fun i =>
      { h := Vector.replicate 8 0, t := 0, f0 := 0, f1 := 0,
        A := if prm.fanout = 1 then lanesZero else keccakAbsorb lanesZero (dgPB72 prm i 0) } := by
  have hone : prm.fanout = 1 ↔ ¬ 1 < prm.fanout.toNat := by
    rw [← BitVec.toNat_inj]
    change prm.fanout.toNat = 1 ↔ _
    omega
  simp only [hone, ite_not]
  rfl

/-- The conditions of R284 and R288 on the parameters and the key, the fanout and the digest length excepted. -/
theorem dgRecordCheck_of_key {p : Params} {alg : HashAlg} {prm : DgPrm} {key : Bytes} (hdigest : prm.digestLen = 64)
    (hlen : key.length = prm.keyLen.toNat) (hmax : key.length ≤ 64) (hkeccak : alg = .keccak → key = []) :
    dgRecordCheck p alg (19 + key.length) (parseDgRecord (recordBytes prm key)) =
      if prm.fanout.toNat ≠ 1 ∧
        (prm.fanout.toNat < 2 ∨ prm.fanout.toNat % 2 = 1 ∨ p.nproc < prm.fanout.toNat) then some .parDegree
      else if prm.leafLen.toNat % (if alg = .blake2b then 128 else 72) ≠ 0 then some .dgLeafLen
      else if alg = .keccak ∧ prm.fanout.toNat = 1 ∧
        (prm.depth.toNat ≠ 1 ∨ prm.leafLen.toNat ≠ 0 ∨ prm.innerLen.toNat ≠ 0 ∨ prm.threadCount.toNat ≠ 0) then
        some .dgSeqParams
      else none := by
  have hkey : ¬ (64 < prm.keyLen.toNat ∨ (alg = .keccak ∧ prm.keyLen.toNat ≠ 0)) := by
    rintro (hlong | ⟨halg, hne⟩)
    · omega
    · exact hne (by rw [← hlen, hkeccak halg, List.length_nil])
  have hnode : ¬ ((0 : Word64).toNat ≠ 0 ∨ (0 : Byte).toNat ≠ 0) := by decide
  have hdigestNat : prm.digestLen.toNat = 64 := congrArg BitVec.toNat hdigest
  rw [parseDgRecord_recordBytes, dgRecordCheck_eq]
  dsimp only
  rw [if_neg (not_not.mpr hdigestNat), if_neg hkey, if_neg (not_not.mpr (congrArg (19 + ·) hlen)), if_neg hnode]

/-- Settles O52: the checks of the model are those of the statement, and a record that passes them gives the parameters
and the leaves of an empty message. -/
theorem dgInitEffect : Obligations.DgInitEffect := by
  refine ⟨fun alg addr len s prm key hholds => ?_, fun alg addr len s c hc =>
    raises_of_check (i := .dgInit alg addr len) ?_⟩
  swap
  · rw [commandCheck, dgInitCheck, dgRecordCheck_eq, parseDgRecord_leafLen, parseDgRecord_nodeOffset]
    simp only [Bool.not_eq_true', inRange_false_iff]
    exact hc
  obtain ⟨hparse, hcheck⟩ := dgInitCheck_record (alg := alg) hholds
  refine ⟨fun hdigest ⟨hlen, hmax, hkeccak⟩ hfanout hleaf hseq => ?_,
    fun hdigest ⟨hlen, hmax, hkeccak⟩ hfanout => ?_, fun hdigest => ?_⟩
  · have hseqOk : ¬ (alg = .keccak ∧ prm.fanout.toNat = 1 ∧
        (prm.depth.toNat ≠ 1 ∨ prm.leafLen.toNat ≠ 0 ∨ prm.innerLen.toNat ≠ 0 ∨ prm.threadCount.toNat ≠ 0)) := by
      rintro ⟨halg, hone, hne⟩
      obtain ⟨hdepth, hleafLen, hinner, hthread⟩ := hseq halg (BitVec.eq_of_toNat_eq hone)
      simp [hdepth, hleafLen, hinner, hthread] at hne
    have hpass : commandCheck (.dgInit alg addr len) s = none := by
      rw [commandCheck, hcheck, dgRecordCheck_of_key hdigest hlen hmax hkeccak, if_neg (by omega),
        if_neg (not_not.mpr hleaf), if_neg hseqOk]
    rw [exec_of_passed hpass, commandEffect, hparse, DgUnit.init_recordBytes]
    cases alg with
    | blake2b => rfl
    | keccak =>
      rw [leafStart_keccak (by omega)]
      rfl
  · rw [← raiseError_dg]
    refine raises_of_check (i := .dgInit alg addr len) (hcheck.trans ?_)
    rw [dgRecordCheck_of_key hdigest hlen hmax hkeccak, if_pos (by omega)]
  · rw [← raiseError_dg]
    refine raises_of_check (i := .dgInit alg addr len) (hcheck.trans ?_)
    rw [parseDgRecord_recordBytes]
    exact if_pos hdigest

end Sys2Proof.Machine
end

section
/-! The blocks that each leaf takes (R282), as a list: cutting a message at a multiple of the width of the tree, and the
part of a short message. -/

namespace Sys2Proof.Machine

/-! ### Slices -/

theorem slice_min_length (s : Bytes) (a b : Nat) : slice s (min a s.length) (min b s.length) = slice s a b := by
  rcases Nat.le_total a s.length with ha | ha
  · rw [Nat.min_eq_left ha, slice, slice, List.take_eq_take_iff, List.length_drop]
    omega
  · rw [Nat.min_eq_right ha, slice, slice, List.drop_length, List.drop_eq_nil_of_le ha, List.take_nil, List.take_nil]

theorem slice_drop (s : Bytes) (k a b : Nat) : slice (s.drop k) a b = slice s (k + a) (k + b) := by
  rw [slice, slice, List.drop_drop, Nat.add_sub_add_left]

theorem slice_take {k a b : Nat} (hb : b ≤ k) (s : Bytes) : slice (s.take k) a b = slice s a b := by
  rw [slice, slice, List.drop_take, List.take_take, Nat.min_eq_left (by omega)]

/-! ### Dealing pieces to the leaves -/

/-- The pieces that go to leaf `i` of `p` when they are dealt from position `k` on: those at the positions `j` with
`j mod p = i` (R282). -/
def dealt (p i k : Nat) (pieces : List Bytes) : List Bytes :=
  ((pieces.zipIdx k).filter fun b => b.2 % p == i).map Prod.fst

@[simp] theorem dealt_nil (p i k : Nat) : dealt p i k [] = [] := rfl

theorem dealt_cons (p i k : Nat) (b : Bytes) (l : List Bytes) :
    dealt p i k (b :: l) = (if k % p = i then [b] else []) ++ dealt p i (k + 1) l := by
  rw [dealt, List.zipIdx_cons, List.filter_cons]
  by_cases h : k % p = i
  · rw [if_pos h, if_pos (by simpa using h)]
    rfl
  · rw [if_neg h, if_neg (by simpa using h)]
    rfl

theorem dealt_append (p i k : Nat) (l r : List Bytes) :
    dealt p i k (l ++ r) = dealt p i k l ++ dealt p i (k + l.length) r := by
  rw [dealt, List.zipIdx_append, List.filter_append, List.map_append]
  rfl

/-- After whole rounds the deal starts over. -/
theorem dealt_add_rounds (p i n k : Nat) (l : List Bytes) : dealt p i (k + n * p) l = dealt p i k l := by
  induction l generalizing k with
  | nil => rfl
  | cons b l ih => rw [dealt_cons, dealt_cons, Nat.add_mul_mod_self_right, Nat.add_right_comm, ih]

/-- In one round leaf `i` gets the piece at its position, if there is one and it is still to come. -/
theorem dealt_of_round {p i : Nat} (hi : i < p) {k : Nat} {l : List Bytes} (hl : k + l.length ≤ p) :
    dealt p i k l = if k ≤ i then l[i - k]?.toList else [] := by
  induction l generalizing k with
  | nil => simp
  | cons b l ih =>
    rw [List.length_cons] at hl
    rw [dealt_cons, Nat.mod_eq_of_lt (by omega : k < p), ih (by omega)]
    rcases Nat.lt_trichotomy k i with hlt | rfl | hgt
    · obtain ⟨d, rfl⟩ : ∃ d, i = k + 1 + d := ⟨i - (k + 1), by omega⟩
      simp [show k + 1 + d - k = d + 1 by omega, show k ≠ k + 1 + d by omega, show k ≤ k + 1 + d by omega]
    · simp
    · simp [hgt.ne', show ¬ k + 1 ≤ i by omega, show ¬ k ≤ i by omega]

/-- A single leaf gets everything. -/
theorem dealt_one (k : Nat) (l : List Bytes) : dealt 1 0 k l = l := by
  induction l generalizing k with
  | nil => rfl
  | cons b l ih => rw [dealt_cons, ih, Nat.mod_one, if_pos rfl, List.singleton_append]

/-! ### The blocks of a message -/

/-- The blocks of `LeafMsg(m, i)` (R282). -/
def leafBlocks (bs p : Nat) (m : Bytes) (i : Nat) : List Bytes := dealt p i 0 (chunks bs m)

theorem leafMsg_eq_flatten (bs p : Nat) (m : Bytes) (i : Nat) : leafMsg bs p m i = (leafBlocks bs p m i).flatten := by
  rw [leafMsg, leafBlocks, dealt, List.flatMap_def]

/-- A tree of one leaf has its message whole. -/
theorem leafMsg_one {bs : Nat} (hbs : 0 < bs) (m : Bytes) : leafMsg bs 1 m 0 = m := by
  rw [leafMsg_eq_flatten, leafBlocks, dealt_one, chunks_flatten hbs]

section
variable {bs : Nat} (hbs : 0 < bs)
include hbs

/-- Piece `i` of a string is the slice at `i` (R17). -/
theorem chunks_getElem? (m : Bytes) (i : Nat) :
    (chunks bs m)[i]? = if i * bs < m.length then some (slice m (i * bs) ((i + 1) * bs)) else none := by
  induction i generalizing m with
  | zero =>
    rcases eq_or_ne m [] with rfl | hm
    · rfl
    · have hpos := List.length_pos_iff.mpr hm
      simp [chunks_of_ne_nil hbs hm, hpos, slice]
  | succ i ih =>
    rcases eq_or_ne m [] with rfl | hm
    · simp
    · have hlt : i * bs < (m.drop bs).length ↔ (i + 1) * bs < m.length := by
        rw [List.length_drop, Nat.succ_mul]
        omega
      have hslice : slice (m.drop bs) (i * bs) ((i + 1) * bs) = slice m ((i + 1) * bs) ((i + 1 + 1) * bs) := by
        rw [slice, slice, List.drop_drop, ← Nat.sub_mul, ← Nat.sub_mul, Nat.succ_mul i, Nat.add_comm bs]
        simp
      rw [chunks_of_ne_nil hbs hm, List.getElem?_cons_succ, ih, hslice]
      simp only [hlt]

/-- A string of `n` blocks has `n` pieces. -/
theorem chunks_length {n : Nat} {m : Bytes} (hm : m.length = n * bs) : (chunks bs m).length = n := by
  induction n generalizing m with
  | zero =>
    obtain rfl := List.length_eq_zero_iff.mp (hm.trans (Nat.zero_mul bs))
    rfl
  | succ n ih =>
    rw [Nat.succ_mul] at hm
    have hne : m ≠ [] := List.ne_nil_of_length_pos (by omega)
    rw [chunks_of_ne_nil hbs hne, List.length_cons, ih (by rw [List.length_drop]; omega)]

/-- The pieces of a string of whole blocks are whole blocks. -/
theorem length_of_mem_chunks {n : Nat} {m : Bytes} (hm : m.length = n * bs) {b : Bytes} (hb : b ∈ chunks bs m) :
    b.length = bs := by
  obtain ⟨i, hi⟩ := List.mem_iff_getElem?.mp hb
  rw [chunks_getElem? hbs] at hi
  split_ifs at hi with hlt
  obtain rfl := Option.some.inj hi
  rw [hm] at hlt
  have hend : (i + 1) * bs ≤ n * bs := Nat.mul_le_mul_right bs (Nat.lt_of_mul_lt_mul_right hlt)
  rw [Nat.succ_mul] at hend ⊢
  exact slice_length_add (hend.trans_eq hm.symm)

theorem chunks_length_le {p : Nat} {m : Bytes} (hm : m.length ≤ p * bs) : (chunks bs m).length ≤ p := by
  rw [← List.getElem?_eq_none_iff, chunks_getElem? hbs, if_neg (Nat.not_lt.mpr hm)]

/-- Whole blocks in front of a string are cut off as they are. -/
theorem chunks_flatten_append {l : List Bytes} (hl : ∀ b ∈ l, b.length = bs) (t : Bytes) :
    chunks bs (l.flatten ++ t) = l ++ chunks bs t := by
  induction l with
  | nil => rfl
  | cons b l ih =>
    obtain ⟨hb, hl⟩ := List.forall_mem_cons.mp hl
    rw [List.flatten_cons, List.append_assoc, chunks_append_piece hbs hb, ih hl, List.cons_append]

/-! ### Whole rounds and the last rounds (R291, R292) -/

/-- Whole rounds in front of a message are dealt on their own. -/
theorem leafBlocks_append {p n : Nat} {d : Bytes} (hd : d.length = n * (p * bs)) (t : Bytes) (i : Nat) :
    leafBlocks bs p (d ++ t) i = leafBlocks bs p d i ++ leafBlocks bs p t i := by
  rw [← Nat.mul_assoc] at hd
  rw [leafBlocks, chunks_append hbs hd, dealt_append, chunks_length hbs hd, dealt_add_rounds]
  rfl

theorem leafMsg_append {p n : Nat} {d : Bytes} (hd : d.length = n * (p * bs)) (t : Bytes) (i : Nat) :
    leafMsg bs p (d ++ t) i = leafMsg bs p d i ++ leafMsg bs p t i := by
  simp only [leafMsg_eq_flatten, leafBlocks_append hbs hd, List.flatten_append]

/-- In at most one round leaf `i` gets slice `i`. -/
theorem leafBlocks_of_round {p i : Nat} (hi : i < p) {m : Bytes} (hm : m.length ≤ p * bs) :
    leafBlocks bs p m i = if i * bs < m.length then [slice m (i * bs) ((i + 1) * bs)] else [] := by
  rw [leafBlocks, dealt_of_round hi (by rw [Nat.zero_add]; exact chunks_length_le hbs hm), if_pos (Nat.zero_le i),
    Nat.sub_zero, chunks_getElem? hbs]
  split_ifs <;> rfl

theorem leafMsg_of_round {p i : Nat} (hi : i < p) {m : Bytes} (hm : m.length ≤ p * bs) :
    leafMsg bs p m i = slice m (i * bs) ((i + 1) * bs) := by
  rw [leafMsg_eq_flatten, leafBlocks_of_round hbs hi hm]
  split_ifs with hlt
  · exact List.append_nil _
  · rw [slice, List.drop_eq_nil_of_le (by omega), List.take_nil]
    rfl

theorem length_of_mem_leafBlocks {p n : Nat} {d : Bytes} (hd : d.length = n * (p * bs)) {i : Nat} {b : Bytes}
    (hb : b ∈ leafBlocks bs p d i) : b.length = bs := by
  rw [← Nat.mul_assoc] at hd
  obtain ⟨⟨c, j⟩, hc, rfl⟩ := List.mem_map.mp hb
  exact length_of_mem_chunks hbs hd (List.fst_mem_of_mem_zipIdx (List.mem_of_mem_filter hc))

/-- A leaf has no more blocks than the message has bytes. -/
theorem leafBlocks_length_le {p n : Nat} {d : Bytes} (hd : d.length = n * (p * bs)) (i : Nat) :
    (leafBlocks bs p d i).length ≤ d.length := by
  rw [← Nat.mul_assoc] at hd
  calc (leafBlocks bs p d i).length ≤ (chunks bs d).length := by
        rw [leafBlocks, dealt, List.length_map, ← List.length_zipIdx (l := chunks bs d) (i := 0)]
        exact List.length_filter_le _ _
    _ ≤ d.length := by
        rw [chunks_length hbs hd, hd]
        exact Nat.le_mul_of_pos_right _ hbs

end

end Sys2Proof.Machine
end

section
/-! The state of unit DG in the middle of a message (R291): the bytes that are dispatched, in whole rounds, and those in
the buffer, which are more than a round once anything is dispatched. -/

namespace Sys2Proof.Machine

/-- Leaf `i` after the blocks of the dispatched bytes `d` (R289, R290). -/
def DgUnit.absorbed (u : DgUnit) (d : Bytes) (i : Nat) : Leaf :=
  (leafBlocks (dgBs u.alg) u.P d i).foldl (leafAbsorb u.alg u.prm u.key) (leafStart u.alg u.prm i)

/-- Unit DG when the bytes `d` of its message are dispatched and the bytes `buf` wait in the buffer. -/
def DgUnit.holding (u : DgUnit) (d buf : Bytes) : DgUnit :=
  { u with leaves := (List.range u.P).map (u.absorbed d), buf := buf }

@[simp] theorem DgUnit.holding_alg (u : DgUnit) (d buf : Bytes) : (u.holding d buf).alg = u.alg := rfl
theorem DgUnit.holding_leaves (u : DgUnit) (d buf : Bytes) :
    (u.holding d buf).leaves = (List.range u.P).map (u.absorbed d) := rfl

/-- How R291 divides a message `m` between the leaves and the buffer. -/
structure DgUnit.Divides (u : DgUnit) (m d buf : Bytes) : Prop where
  whole : m = d ++ buf
  rounds : ∃ n, d.length = n * u.W
  fits : buf.length ≤ 2 * u.W
  kept : d ≠ [] → u.W < buf.length

/-- A map that knows its position, after a map over the positions. -/
theorem mapIdx_map_range {α β : Type} (n : Nat) (f : Nat → α) (g : Nat → α → β) :
    ((List.range n).map f).mapIdx g = (List.range n).map fun i => g i (f i) := by
  apply List.ext_getElem <;> simp

theorem DgUnit.start_eq_holding (u : DgUnit) : u.start = u.holding [] [] := rfl

theorem DgUnit.divides_nil (u : DgUnit) : u.Divides [] [] [] :=
  ⟨rfl, ⟨0, (Nat.zero_mul _).symm⟩, Nat.zero_le _, fun h => absurd rfl h⟩

/-- Block `i` of a round ends inside the round. -/
theorem DgUnit.block_end_le {u : DgUnit} {i : Nat} (hi : i < u.P) : (i + 1) * dgBs u.alg ≤ u.W :=
  Nat.mul_le_mul_right _ hi

/-- A dispatch moves one round from the buffer to the leaves (R291). -/
theorem DgUnit.dispatch_holding {u : DgUnit} {m d buf : Bytes} (h : u.Divides m d buf) (hfull : u.W ≤ buf.length) :
    (u.holding d buf).dispatch = u.holding (d ++ buf.take u.W) (buf.drop u.W) := by
  obtain ⟨-, ⟨n, hd⟩, -, -⟩ := h
  have hround : (buf.take u.W).length = u.W := List.length_take_of_le hfull
  have hleaf : ∀ i ∈ List.range u.P,
      leafAbsorb u.alg u.prm u.key (u.absorbed d i) (slice buf (i * dgBs u.alg) ((i + 1) * dgBs u.alg)) =
        u.absorbed (d ++ buf.take u.W) i := by
    intro i hi
    have hi : i < u.P := List.mem_range.mp hi
    have hend := DgUnit.block_end_le hi
    have hpos := dgBs_pos u.alg
    have hstart : i * dgBs u.alg < (buf.take u.W).length := by
      rw [hround]
      exact Nat.lt_of_lt_of_le (Nat.mul_lt_mul_of_pos_right i.lt_succ_self hpos) hend
    rw [DgUnit.absorbed, DgUnit.absorbed, leafBlocks_append hpos hd, List.foldl_append,
      leafBlocks_of_round hpos hi hround.le, if_pos hstart, slice_take hend]
    rfl
  rw [DgUnit.dispatch, DgUnit.holding_leaves, mapIdx_map_range]
  exact congrArg (fun leaves => { u with leaves := leaves, buf := buf.drop u.W }) (List.map_congr_left hleaf)

/-- One more byte of the message (R291). -/
theorem DgUnit.push_holding {u : DgUnit} (hW : 0 < u.W) {m d buf : Bytes} (h : u.Divides m d buf) (b : Byte) :
    ∃ d' buf', (u.holding d buf).push b = u.holding d' buf' ∧ u.Divides (m ++ [b]) d' buf' := by
  obtain ⟨rfl, ⟨n, hd⟩, hfits, hkept⟩ := id h
  rcases hfits.lt_or_eq with hroom | hfull
  · refine ⟨d, buf ++ [b], ?_, List.append_assoc _ _ _, ⟨n, hd⟩, ?_, fun hne => ?_⟩
    · rw [DgUnit.push, DgUnit.makeRoom_of_room hroom]
      rfl
    · rw [List.length_append]
      exact hroom
    · rw [List.length_append]
      exact Nat.lt_add_right _ (hkept hne)
  · have hdrop : (buf.drop u.W).length = u.W := by
      rw [List.length_drop]
      omega
    refine ⟨d ++ buf.take u.W, buf.drop u.W ++ [b], ?_, ?_, ⟨n + 1, ?_⟩, ?_, fun _ => ?_⟩
    · rw [DgUnit.push, DgUnit.makeRoom_of_full hfull, DgUnit.dispatch_holding h (by omega)]
      rfl
    · rw [List.append_assoc, List.append_assoc, ← List.append_assoc (buf.take u.W), List.take_append_drop]
    · rw [List.length_append, List.length_take, hd, Nat.succ_mul]
      omega
    · rw [List.length_append, List.length_singleton, hdrop]
      omega
    · rw [List.length_append, List.length_singleton, hdrop]
      omega

/-- After any message the unit holds a division of it (R291). -/
theorem DgUnit.start_update {p : Params} {u : DgUnit} (h : u.started p) (m : Bytes) :
    ∃ d buf, u.start.update m = u.holding d buf ∧ u.Divides m d buf := by
  rw [DgUnit.update_eq_foldl (DgUnit.start_started h)]
  induction m using List.reverseRecOn with
  | nil => exact ⟨[], [], u.start_eq_holding, u.divides_nil⟩
  | append_singleton m b ih =>
    obtain ⟨d, buf, hm, hdiv⟩ := ih
    rw [List.foldl_concat, hm]
    exact DgUnit.push_holding h.W_pos hdiv b

/-! ### What a leaf has left in the buffer (R292) -/

/-- `r_i` is block `i` of the buffer and block `i` of its second half, as far as they are there (R292). -/
theorem DgUnit.rest_eq (u : DgUnit) (i : Nat) :
    u.rest i = slice u.buf (i * dgBs u.alg) ((i + 1) * dgBs u.alg) ++
      slice (u.buf.drop u.W) (i * dgBs u.alg) ((i + 1) * dgBs u.alg) := by
  simp only [DgUnit.rest, slice_min_length, slice_drop]

/-- `r_i` is the share of leaf `i` in the bytes of the buffer (R282, R292). -/
theorem DgUnit.rest_eq_leafMsg {u : DgUnit} (hbuf : u.buf.length ≤ 2 * u.W) {i : Nat} (hi : i < u.P) :
    u.rest i = leafMsg (dgBs u.alg) u.P u.buf i := by
  have hpos := dgBs_pos u.alg
  rw [DgUnit.rest_eq]
  rcases Nat.le_total u.W u.buf.length with hle | hle
  · have hround : (u.buf.take u.W).length = 1 * u.W := by
      rw [Nat.one_mul, List.length_take_of_le hle]
    conv_rhs => rw [← List.take_append_drop u.W u.buf]
    rw [leafMsg_append hpos hround, leafMsg_of_round hpos hi (hround.trans (Nat.one_mul _)).le,
      leafMsg_of_round hpos hi (by rw [List.length_drop, ← DgUnit.W]; omega), slice_take (DgUnit.block_end_le hi)]
  · rw [leafMsg_of_round hpos hi hle, List.drop_eq_nil_of_le hle, slice, slice, List.drop_nil, List.take_nil,
      List.append_nil]

/-- A leaf has at most two blocks left (R291). -/
theorem DgUnit.rest_length_le (u : DgUnit) (i : Nat) : (u.rest i).length ≤ 2 * dgBs u.alg := by
  rw [DgUnit.rest_eq, List.length_append, slice_length, slice_length, Nat.succ_mul]
  omega

/-- With a full round in the buffer every leaf has something left (R291). -/
theorem DgUnit.rest_ne_nil {u : DgUnit} (hround : u.W ≤ u.buf.length) {i : Nat} (hi : i < u.P) : u.rest i ≠ [] := by
  have hend := (DgUnit.block_end_le hi).trans hround
  have hpos := dgBs_pos u.alg
  apply List.ne_nil_of_length_pos
  rw [Nat.succ_mul] at hend
  rw [DgUnit.rest_eq, List.length_append, Nat.succ_mul, slice_length_add hend]
  omega

end Sys2Proof.Machine
end

section
/-! The hash of a leaf in the middle of its message (R290, R293) against the hash of the whole (R172, R181). -/

namespace Sys2Proof.Machine

/-! ### BLAKE2b: the loop over the blocks -/

/-- A chain vector and the byte count that goes with it (R55). -/
abbrev ChainState := Chain × BitVec 128

/-- A block that is not the last (R172). -/
def b2Absorb (c : ChainState) (b : Bytes) : ChainState := (b2F c.1 (b2Words b) (c.2 + 128) 0 0, c.2 + 128)

/-- The last block (R172). -/
def b2Last (f1 : Word64) (c : ChainState) (b : Bytes) : Chain :=
  b2F c.1 (b2Words (padTo 128 b)) (c.2 + BitVec.ofNat 128 b.length) (flagWord true) f1

theorem b2Blocks_cons (f1 : Word64) (b : Bytes) {bs : List Bytes} (hbs : bs ≠ []) (c : ChainState) :
    b2Blocks f1 (b :: bs) c.1 c.2 = b2Blocks f1 bs (b2Absorb c b).1 (b2Absorb c b).2 := by
  cases bs with
  | nil => exact absurd rfl hbs
  | cons b' bs => rfl

theorem b2Blocks_concat (f1 : Word64) (bs : List Bytes) (b : Bytes) (c : ChainState) :
    b2Blocks f1 (bs ++ [b]) c.1 c.2 = b2Last f1 (bs.foldl b2Absorb c) b := by
  induction bs generalizing c with
  | nil => rfl
  | cons a bs ih => rw [List.cons_append, b2Blocks_cons f1 a (by simp), ih, List.foldl_cons]

/-- The byte count advances by 128 with every block (R172). -/
theorem b2Absorb_foldl_count (bs : List Bytes) (c : ChainState) :
    (bs.foldl b2Absorb c).2 = c.2 + BitVec.ofNat 128 (128 * bs.length) := by
  induction bs generalizing c with
  | nil => simp
  | cons b bs ih =>
    rw [List.foldl_cons, ih, List.length_cons, Nat.mul_succ, Nat.add_comm (128 * bs.length), BitVec.ofNat_add,
      ← BitVec.add_assoc]
    rfl

/-- A string of at most one block is its own piece. -/
theorem chunks_of_length_le {k : Nat} {s : Bytes} (hk : 0 < k) (hs : s ≠ []) (hlen : s.length ≤ k) :
    chunks k s = [s] := by
  rw [chunks_of_ne_nil hk hs, List.take_of_length_le hlen, List.drop_eq_nil_of_le hlen, chunks_nil]

/-- The hash without a key, when the last block is told apart (R172). -/
theorem b2Hash_blocks (pb : Bytes) {bs : List Bytes} (hbs : ∀ b ∈ bs, b.length = 128) {r : Bytes}
    (hr : r.length ≤ 128) (hlast : r = [] → bs = []) (lastNode : Bool) :
    b2Hash pb [] (bs.flatten ++ r) lastNode =
      chainBytes (b2Last (flagWord lastNode) (bs.foldl b2Absorb (b2Init pb, 0)) r) := by
  have hblocks : (if (bs.flatten ++ r).isEmpty then [[]] else chunks 128 (bs.flatten ++ r)) = bs ++ [r] := by
    rcases eq_or_ne r [] with rfl | hne
    · rw [hlast rfl]
      rfl
    · rw [if_neg (by simp [hne]), chunks_flatten_append (by decide) hbs, chunks_of_length_le (by decide) hne hr]
  have hloop := b2Blocks_concat (flagWord lastNode) bs r (b2Init pb, 0)
  rw [← hloop, ← hblocks]
  rfl

/-- The key block, if there is a key (R172). -/
def keyBlocks (key : Bytes) : List Bytes := if key.isEmpty then [] else [padTo 128 key]

theorem keyBlocks_of_ne_nil {key : Bytes} (h : key ≠ []) : keyBlocks key = [padTo 128 key] := if_neg (by simpa using h)

/-- The key block is the first block of the data (R172). -/
theorem b2Hash_key (pb key msg : Bytes) (lastNode : Bool) :
    b2Hash pb key msg lastNode = b2Hash pb [] ((keyBlocks key).flatten ++ msg) lastNode := by
  cases key with
  | nil => rfl
  | cons k key =>
    rw [keyBlocks_of_ne_nil (List.cons_ne_nil k key), List.flatten_singleton]
    rfl

theorem length_of_mem_keyBlocks {key b : Bytes} (hkey : key.length ≤ 128) (hb : b ∈ keyBlocks key) :
    b.length = 128 := by
  unfold keyBlocks at hb
  split_ifs at hb
  · cases hb
  · rw [List.mem_singleton.mp hb, padTo_length, Nat.max_eq_left hkey]

theorem padTo_of_length_eq {n : Nat} {s : Bytes} (h : s.length = n) : padTo n s = s := by
  rw [padTo, h, Nat.sub_self]
  exact List.append_nil s

/-! ### BLAKE2b: a leaf (R290, R293) -/

/-- The chain state of a leaf (R55). -/
def Leaf.chain (l : Leaf) : ChainState := (l.h, l.t)

theorem keyPending_iff (prm : DgPrm) (l : Leaf) : keyPending prm l = true ↔ l.t = 0 ∧ prm.keyLen ≠ 0 := by
  simp [keyPending]

theorem leafKey_of_pending {prm : DgPrm} {l : Leaf} (h : keyPending prm l = true) (key : Bytes) :
    (leafKey prm key l).chain = b2Absorb l.chain (padTo 128 key) := by
  obtain ⟨ht, -⟩ := (keyPending_iff prm l).mp h
  rw [leafKey, if_pos h, Leaf.chain, Leaf.chain, b2Absorb, ht]
  rfl

theorem leafKey_of_not_pending {prm : DgPrm} {l : Leaf} (h : ¬ keyPending prm l = true) (key : Bytes) :
    leafKey prm key l = l := if_neg h

theorem leafAbsorb_chain (prm : DgPrm) (key : Bytes) (l : Leaf) (b : Bytes) :
    (leafAbsorb .blake2b prm key l b).chain = b2Absorb (leafKey prm key l).chain b := rfl

/-- `LeafFinish` with at most one block left: the key block is the last block of a keyed leaf without data (R293). -/
theorem leafFinishB2_of_block {r : Bytes} (hr : r.length ≤ 128) (prm : DgPrm) (key : Bytes) (l : Leaf)
    (lastNode : Bool) :
    leafFinishB2 prm key l r lastNode =
      if keyPending prm l && r.isEmpty then
        chainBytes (b2F l.h (keyWords key) 128 (flagWord true) (flagWord lastNode))
      else chainBytes (b2Last (flagWord lastNode) (leafKey prm key l).chain r) := by
  simp only [leafFinishB2, if_neg (Nat.not_lt.mpr hr)]
  rfl

/-- `LeafFinish` with more than a block left takes the first one as any other (R293). -/
theorem leafFinishB2_of_two_blocks {r : Bytes} (hmin : 128 < r.length) (hmax : r.length ≤ 256) (prm : DgPrm)
    (key : Bytes) (l : Leaf) (lastNode : Bool) :
    leafFinishB2 prm key l r lastNode =
      leafFinishB2 prm key (leafAbsorb .blake2b prm key l (r.take 128)) (r.drop 128) lastNode := by
  rw [leafFinishB2_of_block (r := r.drop 128) (by rw [List.length_drop]; omega)]
  simp only [leafFinishB2, if_pos hmin]
  rfl

section
variable {prm : DgPrm} {key : Bytes} (hkey : key.length = prm.keyLen.toNat)
include hkey

theorem keyLen_eq_zero_iff : prm.keyLen = 0 ↔ key = [] := by
  rw [← List.length_eq_zero_iff, hkey, ← BitVec.toNat_inj]
  rfl

/-- A leaf that has counted nothing waits for the key block exactly if there is a key (R290). -/
theorem keyPending_iff_key {l : Leaf} (hl : l.t = 0) : keyPending prm l = true ↔ key ≠ [] := by
  rw [keyPending_iff, ne_eq, keyLen_eq_zero_iff hkey, and_iff_right hl]

/-- A leaf that has taken blocks, and then its key block if it is still to come: the chain state after the key block
and the blocks (R290). -/
theorem leafKey_foldl_leafAbsorb {l : Leaf} (hl : l.t = 0) {bs : List Bytes} (hbs : bs.length ≤ 2 ^ 64) :
    (leafKey prm key (bs.foldl (leafAbsorb .blake2b prm key) l)).chain =
      (keyBlocks key ++ bs).foldl b2Absorb l.chain := by
  induction bs using List.reverseRecOn with
  | nil =>
    rw [List.append_nil, List.foldl_nil]
    by_cases hpending : keyPending prm l = true
    · rw [leafKey_of_pending hpending, keyBlocks_of_ne_nil ((keyPending_iff_key hkey hl).mp hpending)]
      rfl
    · rw [leafKey_of_not_pending hpending, not_not.mp (mt (keyPending_iff_key hkey hl).mpr hpending)]
      rfl
  | append_singleton bs b ih =>
    rw [List.length_append, List.length_singleton] at hbs
    rw [← List.append_assoc, List.foldl_concat, List.foldl_concat, ← ih (by omega), ← leafAbsorb_chain]
    generalize bs.foldl (leafAbsorb .blake2b prm key) l = prev at ih ⊢
    have hcount : (leafAbsorb .blake2b prm key prev b).t =
        BitVec.ofNat 128 (128 * (keyBlocks key ++ bs ++ [b]).length) := by
      change (leafAbsorb .blake2b prm key prev b).chain.2 = _
      rw [leafAbsorb_chain, ih (by omega), ← List.foldl_concat (f := b2Absorb), b2Absorb_foldl_count, Leaf.chain, hl]
      exact BitVec.zero_add _
    have hkeyBlocks : (keyBlocks key).length ≤ 1 := by
      unfold keyBlocks
      split_ifs <;> simp
    have hne : (leafAbsorb .blake2b prm key prev b).t ≠ 0 := by
      rw [hcount, ne_eq, ← BitVec.toNat_inj, BitVec.toNat_ofNat]
      simp only [List.length_append, List.length_singleton]
      change ¬ _ = 0
      omega
    rw [leafKey_of_not_pending fun h => hne ((keyPending_iff prm _).mp h).1]

section
variable {l : Leaf} {pb : Bytes} (hl : l.chain = (b2Init pb, 0)) (hmax : key.length ≤ 128) {bs : List Bytes}
  (hfull : ∀ b ∈ bs, b.length = 128) {r : Bytes} (hlast : r = [] → bs = []) (lastNode : Bool)
include hl hmax hfull hlast

/-- The end of a leaf that has at most one block left: the key block is its last one, or `r` is (R293). -/
theorem leafFinishB2_foldl_of_block (hcount : bs.length ≤ 2 ^ 64) (hr : r.length ≤ 128) :
    leafFinishB2 prm key (bs.foldl (leafAbsorb .blake2b prm key) l) r lastNode =
      b2Hash pb key (bs.flatten ++ r) lastNode := by
  obtain ⟨hh, ht⟩ := Prod.mk.inj hl
  rw [leafFinishB2_of_block hr, b2Hash_key]
  split_ifs with hend
  · obtain ⟨hpending, hempty⟩ := Bool.and_eq_true_iff.mp hend
    obtain rfl := List.isEmpty_iff.mp hempty
    obtain rfl := hlast rfl
    have hne := (keyPending_iff_key hkey ht).mp hpending
    have hblock : (padTo 128 key).length = 128 := by rw [padTo_length, Nat.max_eq_left hmax]
    have hhash := b2Hash_blocks pb (bs := []) nofun hblock.le (fun _ => rfl) lastNode
    rw [b2Last, padTo_of_length_eq hblock, hblock] at hhash
    rw [keyBlocks_of_ne_nil hne, List.flatten_singleton, List.flatten_nil, List.append_nil, List.append_nil,
      List.foldl_nil, hh]
    exact hhash.symm
  · have hall : ∀ b ∈ keyBlocks key ++ bs, b.length = 128 := fun b hb =>
      (List.mem_append.mp hb).elim (length_of_mem_keyBlocks hmax) (hfull b)
    have hnone : r = [] → keyBlocks key ++ bs = [] := by
      rintro rfl
      obtain rfl := hlast rfl
      have hnil : key = [] := by
        by_contra hne
        exact hend (Bool.and_eq_true_iff.mpr ⟨(keyPending_iff_key hkey ht).mpr hne, rfl⟩)
      rw [hnil]
      rfl
    rw [leafKey_foldl_leafAbsorb hkey ht hcount, hl, ← List.append_assoc, ← List.flatten_append,
      b2Hash_blocks pb hall hr hnone]

/-- `LeafFinish` completes the hash of the blocks that the leaf has taken and the bytes that it has left (R293). -/
theorem leafFinishB2_foldl (hcount : bs.length < 2 ^ 64) (hr : r.length ≤ 256) :
    leafFinishB2 prm key (bs.foldl (leafAbsorb .blake2b prm key) l) r lastNode =
      b2Hash pb key (bs.flatten ++ r) lastNode := by
  rcases Nat.lt_or_ge 128 r.length with hlong | hshort
  · have hblock : (r.take 128).length = 128 := List.length_take_of_le hlong.le
    have hall : ∀ b ∈ bs ++ [r.take 128], b.length = 128 := fun b hb =>
      (List.mem_append.mp hb).elim (hfull b) fun h => List.mem_singleton.mp h ▸ hblock
    have hsome : r.drop 128 ≠ [] := List.ne_nil_of_length_pos (by rw [List.length_drop]; omega)
    have hsplit : bs.flatten ++ r = (bs ++ [r.take 128]).flatten ++ r.drop 128 := by
      rw [List.flatten_append, List.flatten_singleton, List.append_assoc, List.take_append_drop]
    rw [leafFinishB2_of_two_blocks hlong hr, ← List.foldl_concat (f := leafAbsorb .blake2b prm key), hsplit]
    exact leafFinishB2_foldl_of_block hkey hl hmax hall (fun h => absurd h hsome) lastNode
      (by rw [List.length_append]; exact hcount) (by rw [List.length_drop]; omega)
  · exact leafFinishB2_foldl_of_block hkey hl hmax hfull hlast lastNode (by omega) hshort

end

end

/-! ### Keccak -/

section
variable {bs : List Bytes} (hbs : ∀ b ∈ bs, b.length = 72)
include hbs

/-- Full blocks in front of a string are absorbed first (R181). -/
theorem keccakAbsorbAll_append (a : Lanes) (r : Bytes) :
    keccakAbsorbAll a (bs.flatten ++ r) = keccakAbsorbAll (bs.foldl keccakAbsorb a) r := by
  have hkeep : bs.filter (·.length == 72) = bs := List.filter_eq_self.mpr fun b hb => by simp [hbs b hb]
  rw [keccakAbsorbAll, chunks_flatten_append (by decide) hbs, List.filter_append, List.foldl_append, hkeep]
  rfl

theorem keccakRest_append (r : Bytes) : keccakRest (bs.flatten ++ r) = keccakRest r := by
  have hlen : bs.flatten.length = 72 * bs.length := by
    rw [List.length_flatten, List.map_congr_left hbs, List.map_const', List.sum_replicate, smul_eq_mul, Nat.mul_comm]
  rw [keccakRest, keccakRest, List.length_append, hlen, Nat.mul_add_div (by decide), Nat.mul_add, ← hlen,
    List.drop_length_add_append]

/-- `LeafFinish` completes the hash of the blocks that the leaf has taken and the bytes that it has left (R293). -/
theorem leafFinishKeccak_foldl {l : Leaf} (hl : l.A = bs.foldl keccakAbsorb lanesZero) (r : Bytes) :
    leafFinishKeccak l r = keccak512 (bs.flatten ++ r) := by
  rw [leafFinishKeccak, keccak512, keccakAbsorbAll_append hbs, keccakRest_append hbs, hl]

end

theorem leafAbsorb_keccak (prm : DgPrm) (key : Bytes) (l : Leaf) (b : Bytes) :
    (leafAbsorb .keccak prm key l b).A = keccakAbsorb l.A b := rfl

theorem foldl_leafAbsorb_keccak (prm : DgPrm) (key : Bytes) (bs : List Bytes) (l : Leaf) :
    (bs.foldl (leafAbsorb .keccak prm key) l).A = bs.foldl keccakAbsorb l.A := by
  induction bs generalizing l with
  | nil => rfl
  | cons b bs ih => rw [List.foldl_cons, List.foldl_cons, ih, leafAbsorb_keccak]

/-! ### The root (R294) -/

/-- `Root` for BLAKE2b is the loop of the hash on `n` full blocks, the last of which also carries the last-node flag. -/
theorem rootLoop_eq_b2Blocks {n : Nat} {c : Bytes} (hc : c.length = (n + 1) * 128) (h : Chain) (t : BitVec 128) :
    rootLoop (n + 1) c h t = b2Blocks (flagWord true) (chunks 128 c) h t := by
  have hne : c ≠ [] := List.ne_nil_of_length_pos (by omega)
  induction n generalizing c h t with
  | zero =>
    have hblock : c.length = 128 := by omega
    rw [chunks_of_length_le (by decide) hne hblock.le, b2Blocks, padTo_of_length_eq hblock, hblock, rootLoop, rootLoop,
      List.take_of_length_le hblock.le]
    rfl
  | succ n ih =>
    have hdrop : (c.drop 128).length = (n + 1) * 128 := by
      rw [List.length_drop]
      omega
    have hrest : c.drop 128 ≠ [] := List.ne_nil_of_length_pos (by omega)
    have hchunks : chunks 128 (c.drop 128) ≠ [] := by
      rw [chunks_of_ne_nil (by decide) hrest]
      exact List.cons_ne_nil _ _
    rw [rootLoop, ih hdrop _ _ hrest, chunks_of_ne_nil (by decide) hne]
    exact (b2Blocks_cons (flagWord true) _ hchunks (h, t)).symm

/-- `Root` is the hash of the digests of the leaves, two of which are a block of BLAKE2b (R287, R294). -/
theorem dgRoot_blake2b {prm : DgPrm} {c : Bytes} (heven : prm.fanout.toNat % 2 = 0) (hpos : 0 < prm.fanout.toNat)
    (hc : c.length = prm.fanout.toNat * 64) :
    dgRoot .blake2b prm c = b2Hash (dgPB64 prm 0 1) [] c true := by
  obtain ⟨n, hn⟩ : ∃ n, prm.fanout.toNat / 2 = n + 1 := ⟨prm.fanout.toNat / 2 - 1, by omega⟩
  have hne : c.isEmpty = false := by
    rw [List.isEmpty_eq_false_iff]
    exact List.ne_nil_of_length_pos (by omega)
  have hdata : b2Hash (dgPB64 prm 0 1) [] c true =
      chainBytes
        (b2Blocks (flagWord true) (if c.isEmpty then [[]] else chunks 128 c) (b2Init (dgPB64 prm 0 1)) 0) := rfl
  rw [hdata, hne, dgRoot, hn, rootLoop_eq_b2Blocks (by omega)]
  rfl

end Sys2Proof.Machine
end

section
/-! The digest of a streamed message (R287, R292, R299). -/

namespace Sys2Proof.Machine

/-! ### The parameter block of a Keccak leaf (R286, R289) -/

/-- The parameter block of a Keccak leaf, which it has in a tree only (R289). -/
def paramBlocks (prm : DgPrm) (i : Nat) : List Bytes := if 1 < prm.fanout.toNat then [dgPB72 prm i 0] else []

theorem dgPB72_length (prm : DgPrm) (off dep : Nat) : (dgPB72 prm off dep).length = 72 := by simp [dgPB72, dgPB]

theorem length_of_mem_paramBlocks {prm : DgPrm} {i : Nat} {b : Bytes} (hb : b ∈ paramBlocks prm i) :
    b.length = 72 := by
  unfold paramBlocks at hb
  split_ifs at hb
  · rw [List.mem_singleton.mp hb, dgPB72_length]
  · cases hb

theorem leafStart_keccak_A (prm : DgPrm) (i : Nat) :
    (leafStart .keccak prm i).A =
      if 1 < prm.fanout.toNat then keccakAbsorb lanesZero (dgPB72 prm i 0) else lanesZero := rfl

theorem leafStart_keccak_lanes (prm : DgPrm) (i : Nat) :
    (leafStart .keccak prm i).A = (paramBlocks prm i).foldl keccakAbsorb lanesZero := by
  rw [leafStart_keccak_A, paramBlocks]
  split_ifs
  · rw [List.foldl_cons, List.foldl_nil]
  · rw [List.foldl_nil]

theorem leafDigest_length (alg : HashAlg) (prm : DgPrm) (key m : Bytes) (i : Nat) :
    (leafDigest alg prm key m i).length = 64 := by
  cases alg
  · exact b2Hash_length _ _ _ _
  · exact keccak512_length _

/-! ### The end of a leaf (R292, R293) -/

section
variable {p : Params} {u : DgUnit} {m d buf : Bytes} (h : u.Divides m d buf) {i : Nat} (hi : i < u.P)
include h hi

/-- The blocks that leaf `i` has taken and the bytes that it has left are its message (R282, R292). -/
theorem DgUnit.leafMsg_of_divides :
    leafMsg (dgBs u.alg) u.P m i = (leafBlocks (dgBs u.alg) u.P d i).flatten ++ (u.holding d buf).rest i := by
  obtain ⟨rfl, ⟨n, hd⟩, hfits, -⟩ := h
  rw [leafMsg_append (dgBs_pos u.alg) hd, leafMsg_eq_flatten _ _ d,
    DgUnit.rest_eq_leafMsg (u := u.holding d buf) hfits hi]
  rfl

/-- A leaf without bytes left has not taken a block (R291). -/
theorem DgUnit.leafBlocks_eq_nil (hrest : (u.holding d buf).rest i = []) : leafBlocks (dgBs u.alg) u.P d i = [] := by
  by_cases hd : d = []
  · rw [hd]
    rfl
  · exact absurd hrest (DgUnit.rest_ne_nil (u := u.holding d buf) (h.kept hd).le hi)

/-- The end of a BLAKE2b leaf (R293). -/
theorem DgUnit.leafFinish_blake2b (hu : u.started p) (hm : m.length < 2 ^ 64) (halg : u.alg = .blake2b) :
    (u.holding d buf).leafFinish i (u.absorbed d i) =
      b2Hash (dgPB64 u.prm i 0) u.key (leafMsg 128 u.P m i) (1 < u.P && i + 1 == u.P) := by
  obtain ⟨-, -, -, hkey, hmax, -⟩ := hu
  have hmsg := DgUnit.leafMsg_of_divides h hi
  have hnil := DgUnit.leafBlocks_eq_nil h hi
  have hrest := (u.holding d buf).rest_length_le i
  obtain ⟨hwhole, ⟨n, hd⟩, -, -⟩ := h
  have hblocks : ∀ b ∈ leafBlocks (dgBs u.alg) u.P d i, b.length = dgBs u.alg := fun b =>
    length_of_mem_leafBlocks (dgBs_pos u.alg) hd
  have hcount : (leafBlocks (dgBs u.alg) u.P d i).length < 2 ^ 64 := by
    have hle := leafBlocks_length_le (dgBs_pos u.alg) hd i
    rw [hwhole, List.length_append] at hm
    omega
  have hbs : dgBs u.alg = 128 := by rw [halg]; rfl
  rw [DgUnit.holding_alg] at hrest
  rw [hbs] at hmsg hnil hrest hblocks hcount
  rw [hmsg, DgUnit.absorbed, hbs, halg]
  have hfinish := leafFinishB2_foldl hkey (l := leafStart .blake2b u.prm i) (pb := dgPB64 u.prm i 0) rfl (by omega)
    hblocks hnil (1 < u.P && i + 1 == u.P) hcount hrest
  rw [← hfinish]
  simp only [DgUnit.leafFinish, DgUnit.holding_alg, halg]
  rfl

/-- The end of a Keccak leaf (R293). -/
theorem DgUnit.leafFinish_keccak (halg : u.alg = .keccak) :
    (u.holding d buf).leafFinish i (u.absorbed d i) =
      keccak512 ((paramBlocks u.prm i).flatten ++ leafMsg 72 u.P m i) := by
  have hmsg := DgUnit.leafMsg_of_divides h hi
  obtain ⟨-, ⟨n, hd⟩, -, -⟩ := h
  have hblocks : ∀ b ∈ leafBlocks (dgBs u.alg) u.P d i, b.length = dgBs u.alg := fun b =>
    length_of_mem_leafBlocks (dgBs_pos u.alg) hd
  have hbs : dgBs u.alg = 72 := by rw [halg]; rfl
  rw [hbs] at hmsg hblocks
  have hall : ∀ b ∈ paramBlocks u.prm i ++ leafBlocks 72 u.P d i, b.length = 72 := fun b hb =>
    (List.mem_append.mp hb).elim length_of_mem_paramBlocks (hblocks b)
  have hlanes : (u.absorbed d i).A = (paramBlocks u.prm i ++ leafBlocks 72 u.P d i).foldl keccakAbsorb lanesZero := by
    rw [DgUnit.absorbed, hbs, halg, foldl_leafAbsorb_keccak, leafStart_keccak_lanes, List.foldl_append]
  rw [hmsg, ← List.append_assoc, ← List.flatten_append, ← leafFinishKeccak_foldl hall hlanes]
  simp only [DgUnit.leafFinish, DgUnit.holding_alg, halg]

/-- Once every leaf has ended, its digest is that of its message (R287, R293). -/
theorem DgUnit.leafFinish_eq_leafDigest (hu : u.started p) (hm : m.length < 2 ^ 64) (htree : 1 < u.P) :
    (u.holding d buf).leafFinish i (u.absorbed d i) = leafDigest u.alg u.prm u.key m i := by
  have htree' : 1 < u.prm.fanout.toNat := htree
  cases halg : u.alg with
  | blake2b =>
    rw [DgUnit.leafFinish_blake2b h hi hu hm halg, decide_eq_true htree]
    rfl
  | keccak =>
    rw [DgUnit.leafFinish_keccak h hi halg, paramBlocks, if_pos htree', List.flatten_singleton]
    rfl

end

/-! ### The digest (R287, R292) -/

/-- The digest of a unit in the middle of a message, by its leaves (R292). -/
theorem DgUnit.digest_holding (u : DgUnit) (d buf : Bytes) :
    (u.holding d buf).digest =
      if u.P = 1 then (u.holding d buf).leafFinish 0 (u.absorbed d 0)
      else dgRoot u.alg u.prm ((List.range u.P).flatMap fun i => (u.holding d buf).leafFinish i (u.absorbed d i)) := by
  rw [DgUnit.digest, DgUnit.holding_leaves, mapIdx_map_range, List.flatMap_def]
  change (if u.P = 1 then _ else _) = _
  split_ifs with hone
  · rw [hone]
    rfl
  · rfl

section
variable {p : Params} {u : DgUnit} (hu : u.started p) {m d buf : Bytes} (h : u.Divides m d buf)
  (hm : m.length < 2 ^ 64)
include hu h hm

/-- One leaf: the hash of the message (R287). -/
theorem DgUnit.digest_of_one (hone : u.P = 1) :
    (u.holding d buf).digest = dgDigest u.alg u.prm u.key m := by
  have hone' : u.prm.fanout.toNat = 1 := hone
  have hi : 0 < u.P := hu.P_pos
  rw [DgUnit.digest_holding, if_pos hone]
  cases halg : u.alg with
  | blake2b =>
    rw [DgUnit.leafFinish_blake2b h hi hu hm halg, hone, leafMsg_one (by decide), dgDigest, if_pos hone']
    rfl
  | keccak =>
    rw [DgUnit.leafFinish_keccak h hi halg, hone, leafMsg_one (by decide), dgDigest, if_pos hone', paramBlocks,
      if_neg (by omega)]
    rfl

/-- A tree: the root of the digests of the leaves (R287, R294). -/
theorem DgUnit.digest_of_tree (htree : u.P ≠ 1) :
    (u.holding d buf).digest = dgDigest u.alg u.prm u.key m := by
  have htree' : u.prm.fanout.toNat ≠ 1 := htree
  obtain ⟨-, hfanout, -⟩ := id hu
  obtain ⟨hmin, heven, -⟩ := ((fanoutLegal_iff p u.P).mp hfanout).resolve_left htree
  have hleaves : (List.range u.P).flatMap (fun i => (u.holding d buf).leafFinish i (u.absorbed d i)) =
      (List.range u.P).flatMap (leafDigest u.alg u.prm u.key m) :=
    List.flatMap_congr fun i hi => DgUnit.leafFinish_eq_leafDigest h (List.mem_range.mp hi) hu hm hmin
  have hlen : ((List.range u.P).flatMap (leafDigest u.alg u.prm u.key m)).length = u.P * 64 := by
    rw [flatMap_length_const _ _ 64 fun i _ => leafDigest_length _ _ _ _ i, List.length_range]
  rw [DgUnit.digest_holding, if_neg htree, hleaves]
  generalize hds : (List.range u.P).flatMap (leafDigest u.alg u.prm u.key m) = ds at hlen
  cases halg : u.alg with
  | blake2b =>
    rw [dgRoot_blake2b heven (Nat.lt_of_lt_of_le Nat.two_pos hmin) hlen, dgDigest, if_neg htree', ← hds, halg]
    rfl
  | keccak =>
    rw [dgRoot, dgDigest, if_neg htree', ← hds, halg]
    rfl

end

/-- Settles O55: the loop of R291 divides the message between leaves and buffer, each leaf ends with the hash of its
share, and the root hashes these. -/
theorem dgStreamingIsDigest : Obligations.DgStreamingIsDigest := by
  intro p u m hu hm
  obtain ⟨d, buf, hfed, h⟩ := DgUnit.start_update hu m
  rw [hfed]
  rcases eq_or_ne u.P 1 with hone | htree
  · exact DgUnit.digest_of_one hu h hm hone
  · exact DgUnit.digest_of_tree hu h hm htree

end Sys2Proof.Machine
end

section
/-! Unit JENT (spec/47_entropy_drbg.md R352 to R356): its commands, and its availability in every step. -/

namespace Sys2Proof.Machine

/-! ### The availability (R353) -/

/-- Only the commands of units SYS and JENT can change unit JENT (R42). -/
theorem commandEffect_jent_of_unit {i : Instr} (hsys : i.unit ≠ .sys) (hjent : i.unit ≠ .jent) (s : State) :
    (commandEffect i s).jent = s.jent := by
  obtain ⟨hframe, -⟩ := commandEffect_frame i s
  obtain ⟨-, -, -, -, -, hother, -⟩ := hframe hsys
  exact hother hjent

/-- A command leaves unit JENT alone, or changes its internal state by a draw (R352). -/
theorem commandEffect_jent (i : Instr) (s : State) :
    (commandEffect i s).jent = s.jent ∨ ∃ n, (commandEffect i s).jent = s.jent.drawn n := by
  cases i with
  | jentGet | jentNext => exact .inr ⟨_, rfl⟩
  | sysSetpar => exact .inl (by rw [commandEffect, finish_jent, setPar_jent])
  | sysNop | sysReset | jentAvail => exact .inl rfl
  | _ => exact .inl (commandEffect_jent_of_unit (by simp [Instr.unit]) (by simp [Instr.unit]) s)

theorem commandEffect_jent_available (i : Instr) (s : State) :
    (commandEffect i s).jent.available = s.jent.available := by
  rcases commandEffect_jent i s with h | ⟨n, h⟩
  · rw [h]
  · rw [h, JentUnit.drawn_available]

/-- No error changes unit JENT, not even its own (R410). -/
theorem raiseError_jent (u : UnitId) (c : Cause) (s : State) : (raiseError u c s).jent = s.jent := by
  by_cases hu : u = .jent
  · rw [hu]
    rfl
  · obtain ⟨-, -, -, -, -, hjent, -⟩ := raiseError_other u c s
    exact hjent hu

theorem exec_jent_available {i : Instr} {s t : State} (h : exec i s = .next t) :
    t.jent.available = s.jent.available := by
  rcases exec_cases h with ⟨c, -, rfl⟩ | ⟨-, rfl⟩
  · rw [raiseError_jent]
  · exact commandEffect_jent_available i s

/-- Settles O23: of the steps of `step_units` a command keeps the availability, and every other one but a hardware
reset changes no unit. -/
theorem jentAvailableConstant : Obligations.JentAvailableConstant := by
  intro s t h
  rcases step_units h with ⟨-, i, r, -, hx, rfl⟩ | ⟨rest, he, -⟩ | ⟨-, -, -, -, -, hjent, -⟩
  · rw [report_jent]
    exact .inl (exec_jent_available hx)
  · exact .inr ⟨rest, he⟩
  · exact .inl (by rw [hjent])

/-! ### The commands (R354 to R356) -/

/-- JENT.GET of an available unit checks its destination (R354). -/
theorem jentGetCheck_available {s : State} (havail : s.jent.available = true) (dst len : Word) :
    jentGetCheck dst len s = if !inRange s.cfg dst.toNat len.toNat then some .dstRange else none := by
  rw [jentGetCheck, havail]
  rfl

theorem jentNextCheck_available {s : State} (havail : s.jent.available = true) : commandCheck .jentNext s = none := by
  rw [commandCheck, havail]
  rfl

/-- Availability is the first check of both commands that draw (R354, R355). -/
theorem jentCheck_unavailable {s : State} (havail : s.jent.available = false) {dst len : Word} {i : Instr}
    (hi : i ∈ [Instr.jentGet dst len, .jentNext]) : commandCheck i s = some .jentUnavailable := by
  rcases List.mem_pair.mp hi with rfl | rfl
  · rw [commandCheck, jentGetCheck, havail]
    rfl
  · rw [commandCheck, havail]
    rfl

/-- A failing check of a command of unit JENT changes STATUS and RESULT only (R405, R410). -/
theorem exec_of_jentError {i : Instr} (hunit : i.unit = .jent) {s : State} {c : Cause}
    (h : commandCheck i s = some c) :
    exec i s = .next { s with result := 0, status := s.status.raised .jent c } := by
  rw [raises_of_check h, hunit]
  rfl

/-- Settles O58: the checks in their order; JENT.GET stores consecutive draws, and JENT.NEXT returns one. -/
theorem jentCommands : Obligations.JentCommands := by
  refine fun dst len s hwf => ⟨fun havail hrange => ?_, fun havail => ?_, fun havail hout => ?_,
    fun havail i hi => ?_, exec_of_passed (i := .jentAvail) rfl⟩
  · have hpass : commandCheck (.jentGet dst len) s = none :=
      (jentGetCheck_available havail dst len).trans (rangeCheck_of_inDmem hrange _)
    have havail' : (commandEffect (.jentGet dst len) s).jent.available = true :=
      (commandEffect_jent_available _ s).trans havail
    exact ⟨_, exec_of_passed hpass, rfl, havail', Nat.le_succ _, wrote_commandEffect hwf (.jentGet dst len)⟩
  · exact ⟨_, exec_of_passed (jentNextCheck_available havail), (commandEffect_jent_available .jentNext s).trans havail,
      Nat.lt_succ_self _, rfl⟩
  · have hfail : commandCheck (.jentGet dst len) s = some .dstRange :=
      (jentGetCheck_available havail dst len).trans (rangeCheck_of_not_inDmem hout _)
    exact exec_of_jentError rfl hfail
  · have hunit : i.unit = .jent := by rcases List.mem_pair.mp hi with rfl | rfl <;> rfl
    exact exec_of_jentError hunit (jentCheck_unavailable havail hi)

end Sys2Proof.Machine
end

section
/-! DRBG.GEN (spec/47_entropy_drbg.md R363, R367, R368): the loop of R363 reads one stream, whose first block is in the
buffer and whose later blocks come from refilling it. -/

namespace Sys2Proof.Machine

/-! ### The stream of the generator (R368) -/

theorem drbgStateAt_succ (kind : BitVec 2) (size : Nat) (g : Bytes) (j : Nat) :
    drbgStateAt kind size g (j + 1) = drbgStateAt kind size (Config.drbgGenState kind g size) j := by
  induction j with
  | zero => rfl
  | succ j ih => rw [drbgStateAt, ih, drbgStateAt]

/-- Inside its first block the stream is the first output of the generator. -/
theorem drbgStreamByte_of_lt {size k : Nat} (hk : k < size) (kind : BitVec 2) (g : Bytes) :
    drbgStreamByte kind size g k = Config.drbgGenByte kind g size k := by
  rw [drbgStreamByte, Nat.div_eq_of_lt hk, Nat.mod_eq_of_lt hk, drbgStateAt]

/-- From its second block on the stream is that of the next generator state. -/
theorem drbgStreamByte_add_size {size : Nat} (hsize : 0 < size) (kind : BitVec 2) (g : Bytes) (k : Nat) :
    drbgStreamByte kind size g (size + k) = drbgStreamByte kind size (Config.drbgGenState kind g size) k := by
  rw [drbgStreamByte, Nat.add_div_left k hsize, Nat.add_mod_left, drbgStateAt_succ, drbgStreamByte]

/-! ### Strings of drawn bytes -/

theorem drawBytes_add (f : Nat → Byte) (k m : Nat) :
    drawBytes f (k + m) = drawBytes f k ++ drawBytes (fun j => f (k + j)) m := by
  rw [drawBytes, List.range_add, List.map_append, List.map_map]
  rfl

theorem slice_drawBytes (f : Nat → Byte) {p k n : Nat} (h : p + k ≤ n) :
    slice (drawBytes f n) p (p + k) = drawBytes (fun j => f (p + j)) k := by
  obtain ⟨m, rfl⟩ := Nat.exists_eq_add_of_le h
  rw [drawBytes_add, drawBytes_add]
  exact slice_middle (drawBytes_length f p) (congrArg (p + ·) (drawBytes_length _ k)) _

/-! ### What the unit has still to deliver -/

/-- The unit stands in a stream whose remaining bytes are `f 0`, `f 1`, ... (R368). -/
def DrbgUnit.Delivers (u : DrbgUnit) (size : Nat) (f : Nat → Byte) : Prop :=
  ∃ g, u.onStream size g ∧ ∀ k, drbgStreamByte u.kind size g (u.idx + k) = f k

section
variable {size : Nat} {u : DrbgUnit} {f : Nat → Byte} (h : u.Delivers size f)
include h

/-- Bytes taken out of the buffer are the next bytes of the stream, and the unit stands after them. -/
theorem DrbgUnit.take_delivers {k : Nat} (hk : u.idx + k ≤ size) :
    slice u.buf u.idx (u.idx + k) = drawBytes f k ∧
      DrbgUnit.Delivers { u with idx := u.idx + k } size fun j => f (k + j) := by
  obtain ⟨g, ⟨hbuf, hstate, -⟩, hf⟩ := h
  refine ⟨?_, g, ⟨hbuf, hstate, hk⟩, fun j => ?_⟩
  · rw [hbuf, slice_drawBytes _ hk]
    refine List.map_congr_left fun j hj => ?_
    have hlt : u.idx + j < size := Nat.lt_of_lt_of_le (Nat.add_lt_add_left (List.mem_range.mp hj) _) hk
    rw [← hf, drbgStreamByte_of_lt hlt]
  · calc drbgStreamByte u.kind size g (u.idx + k + j)
        = drbgStreamByte u.kind size g (u.idx + (k + j)) := by rw [Nat.add_assoc]
      _ = f (k + j) := hf (k + j)

/-- Refilling an exhausted buffer goes on in the same stream (R367, R368). -/
theorem DrbgUnit.freshen_delivers (hsize : 0 < size) :
    (u.freshen size).Delivers size f ∧ (u.freshen size).idx < size := by
  obtain ⟨g, ⟨hbuf, hstate, hidx⟩, hf⟩ := h
  unfold DrbgUnit.freshen
  split_ifs with hend
  · refine ⟨⟨u.gstate, ⟨rfl, rfl, Nat.zero_le size⟩, fun k => ?_⟩, hsize⟩
    calc drbgStreamByte u.kind size u.gstate (0 + k)
        = drbgStreamByte u.kind size g (size + k) := by rw [Nat.zero_add, hstate, drbgStreamByte_add_size hsize]
      _ = drbgStreamByte u.kind size g (u.idx + k) := by rw [hend]
      _ = f k := hf k
  · exact ⟨⟨g, ⟨hbuf, hstate, hidx⟩, hf⟩, by omega⟩

/-- The loop of R363 delivers the next `n` bytes of the stream, and leaves the unit after them: each round takes the
rest of the buffer, and at least one byte. -/
theorem drbgLoop_delivers (hsize : 0 < size) {fuel n : Nat} (hfuel : n ≤ fuel) :
    (drbgLoop size fuel n u).1 = drawBytes f n ∧ (drbgLoop size fuel n u).2.Delivers size fun j => f (n + j) := by
  induction fuel generalizing n u f with
  | zero =>
    obtain rfl := Nat.le_zero.mp hfuel
    exact ⟨rfl, by simpa [drbgLoop] using h⟩
  | succ fuel ih =>
    by_cases hn : n = 0
    · rw [drbgLoop, if_pos hn, hn]
      exact ⟨rfl, by simpa using h⟩
    · rw [drbgLoop_succ _ _ _ hn]
      obtain ⟨hfresh, hidx⟩ := DrbgUnit.freshen_delivers h hsize
      generalize u.freshen size = v at hfresh hidx
      dsimp only
      generalize hk : min n (size - v.idx) = k
      obtain ⟨hbytes, htaken⟩ := DrbgUnit.take_delivers hfresh (k := k) (by omega)
      obtain ⟨hrest, hafter⟩ := ih htaken (show n - k ≤ fuel by omega)
      have hsplit : n = k + (n - k) := by omega
      constructor
      · rw [hbytes, hrest, ← drawBytes_add, ← hsplit]
      · simpa only [← Nat.add_assoc, ← hsplit] using hafter

end

/-! ### What the loop leaves alone -/

theorem DrbgUnit.freshen_fields (u : DrbgUnit) (size : Nat) :
    (u.freshen size).phase = u.phase ∧ (u.freshen size).kind = u.kind ∧ (u.freshen size).seed = u.seed := by
  unfold DrbgUnit.freshen
  split_ifs <;> exact ⟨rfl, rfl, rfl⟩

/-- The loop of R363 changes the buffer, the index and the state of the generator only. -/
theorem drbgLoop_fields (size fuel n : Nat) (u : DrbgUnit) :
    (drbgLoop size fuel n u).2.phase = u.phase ∧ (drbgLoop size fuel n u).2.kind = u.kind ∧
      (drbgLoop size fuel n u).2.seed = u.seed := by
  induction fuel generalizing n u with
  | zero => exact ⟨rfl, rfl, rfl⟩
  | succ fuel ih =>
    by_cases hn : n = 0
    · rw [drbgLoop, if_pos hn]
      exact ⟨rfl, rfl, rfl⟩
    · rw [drbgLoop_succ _ _ _ hn]
      obtain ⟨hphase, hkind, hseed⟩ := u.freshen_fields size
      generalize u.freshen size = v at hphase hkind hseed
      dsimp only
      generalize min n (size - v.idx) = k
      obtain ⟨hphase', hkind', hseed'⟩ := ih (n - k) { v with idx := v.idx + k }
      exact ⟨hphase'.trans hphase, hkind'.trans hkind, hseed'.trans hseed⟩

/-! ### The command -/

/-- In phase Ready DRBG.GEN checks its destination (R363). -/
theorem drbgGenCheck_ready {s : State} (hp : s.drbg.phase = .ready) (dst len : Word) :
    drbgGenCheck dst len s = if !inRange s.cfg dst.toNat len.toNat then some .dstRange else none := by
  rw [drbgGenCheck, if_neg (not_not.mpr hp)]

/-- Settles O60: the range check, then the loop of R363, which delivers the next bytes of the stream. -/
theorem drbgGenStream : Obligations.DrbgGenStream := by
  refine ⟨fun dst len s hwf hp hrange => ?_, fun dst len s hp hout => ?_⟩
  · have hpass : commandCheck (.drbgGen dst len) s = none :=
      (drbgGenCheck_ready hp dst len).trans (rangeCheck_of_inDmem hrange _)
    obtain ⟨hphase, hkind, hseed⟩ := drbgLoop_fields s.cfg.drbgBuf len.toNat len.toNat s.drbg
    have hexec := exec_of_passed hpass
    obtain ⟨-, houtside⟩ := writesOnlyItsRange _ _ _ hwf hexec
    refine ⟨_, hexec, rfl, hphase.trans hp, hkind, hseed, houtside _ _ rfl, fun g hsize hg => ?_⟩
    obtain ⟨hbytes, g', hg', hafter⟩ := drbgLoop_delivers ⟨g, hg, fun k => rfl⟩ hsize (Nat.le_refl len.toNat)
    refine ⟨?_, g', hg', fun k => ?_⟩
    · have hwrote := wrote_commandEffect hwf (.drbgGen dst len)
      have hstored : storedBytes (.drbgGen dst len) s = drawBytes _ len.toNat := hbytes
      rwa [hstored] at hwrote
    · rw [hkind] at hafter
      rw [Nat.add_assoc]
      exact (hafter k).symm
  · have hfail : commandCheck (.drbgGen dst len) s = some .dstRange :=
      (drbgGenCheck_ready hp dst len).trans (rangeCheck_of_not_inDmem hout _)
    exact raises_of_check hfail

end Sys2Proof.Machine
end

section
/-! Unit SYS: its three commands (R381, R382, R384), and that no command looks at what a profile, LANES or NPROC
controls (R386). -/

namespace Sys2Proof.Machine

/-! ### SYS.NOP and SYS.RESET -/

/-- Settles O32: neither command has a check, and SYS.RESET ends in `zeroizeAll`. -/
theorem sysNopAndReset : Obligations.SysNopAndReset := fun _ =>
  ⟨rfl, rfl, exec_of_passed (i := .sysNop) rfl, exec_of_passed (i := .sysReset) rfl⟩

/-! ### SYS.SETPAR -/

/-- The target has a profile (R384). -/
abbrev setparUnitOk (target : Byte) : Prop := target = 2 ∨ target = 3 ∨ target = 5

/-- The degree is even and at most NPROC for a profile that is on, and 0 for one that is off (R384). -/
abbrev setparDegreeOk (p : Params) (en : Bool) (degree : Word) : Prop :=
  if en then 2 ≤ degree.toNat ∧ degree.toNat % 2 = 0 ∧ degree.toNat ≤ p.nproc else degree.toNat = 0

/-- The block is a positive multiple of PAR_MIN for a profile that is on, and 0 for one that is off (R383, R384). -/
abbrev setparBlockOk (p : Params) (target : Byte) (en : Bool) (block : Word) : Prop :=
  if en then block.toNat ≠ 0 ∧ block.toNat % parMin p target = 0 else block.toNat = 0

/-- The checks of SYS.SETPAR in their order, in the terms of the claim (R384). -/
theorem sysSetparCheck_eq (target : Byte) (en : Bool) (degree block : Word) (s : State) :
    sysSetparCheck target en degree block s =
      if ¬ setparUnitOk target then some .setparUnit
      else if ¬ setparDegreeOk s.cfg en degree then some .parDegree
      else if ¬ setparBlockOk s.cfg target en block then some .parBlock
      else none := by
  have hunit : (target ≠ 2 ∧ target ≠ 3 ∧ target ≠ 5) ↔ ¬ setparUnitOk target := by
    simp only [setparUnitOk, not_or, ne_eq]
  cases en with
  | false =>
    have hdegree : degree ≠ 0 ↔ ¬ setparDegreeOk s.cfg false degree := not_congr BitVec.toNat_inj.symm
    have hblock : block ≠ 0 ↔ ¬ setparBlockOk s.cfg target false block := not_congr BitVec.toNat_inj.symm
    simp only [sysSetparCheck, hunit, hdegree, hblock, Bool.false_eq_true, if_false]
  | true =>
    have hdegree : (degree.toNat < 2 ∨ degree.toNat % 2 = 1 ∨ s.cfg.nproc < degree.toNat) ↔
        ¬ setparDegreeOk s.cfg true degree := by
      simp only [setparDegreeOk, if_true]
      omega
    have hblock : (block.toNat = 0 ∨ block.toNat % parMin s.cfg target ≠ 0) ↔
        ¬ setparBlockOk s.cfg target true block := by
      simp only [setparBlockOk, if_true, not_and_or, ne_eq, not_not]
    simp only [sysSetparCheck, hunit, hdegree, hblock, if_true]

/-- With a target that has a profile and a legal degree only the block is left to check (R384). -/
theorem sysSetparCheck_block {target : Byte} {en : Bool} {degree : Word} {s : State} (hunit : setparUnitOk target)
    (hdegree : setparDegreeOk s.cfg en degree) (block : Word) :
    sysSetparCheck target en degree block s =
      if ¬ setparBlockOk s.cfg target en block then some .parBlock else none := by
  rw [sysSetparCheck_eq, if_neg (not_not_intro hunit), if_neg (not_not_intro hdegree)]

/-- A legal degree fits the 8-bit field of a profile, NPROC being at most 254 (R12, R43). -/
theorem setparDegree_width {p : Params} (hp : p.legal) {en : Bool} {degree : Word}
    (h : setparDegreeOk p en degree) : (degree.setWidth 8).toNat = degree.toNat := by
  obtain ⟨-, -, -, -, hnproc, -, -⟩ := hp
  rw [BitVec.toNat_setWidth]
  cases en with
  | false =>
    have hzero : degree.toNat = 0 := h
    omega
  | true =>
    obtain ⟨-, -, hmax⟩ : 2 ≤ degree.toNat ∧ degree.toNat % 2 = 0 ∧ degree.toNat ≤ p.nproc := h
    omega

/-- Settles O33: the checks of the model are those of the statement, an error of unit SYS changes no unit, and the
profile that is set holds the operands. -/
theorem sysSetparEffect : Obligations.SysSetparEffect := by
  intro s target en degree block hlegal parMin unitOk degreeOk blockOk error
  have hcheck := sysSetparCheck_eq target en degree block s
  refine ⟨fun hunit => ?_, fun hunit hdegree => ?_, fun hunit hdegree hblock => ?_, fun hdegree hblock => ?_⟩
  · exact raises_of_check (hcheck.trans (if_pos hunit))
  · exact raises_of_check (hcheck.trans ((if_neg (not_not_intro hunit)).trans (if_pos hdegree)))
  · exact raises_of_check ((sysSetparCheck_block hunit hdegree block).trans (if_pos hblock))
  · have hexec (hunit : setparUnitOk target) : exec (.sysSetpar target en degree block) s = _ :=
      exec_of_passed ((sysSetparCheck_block hunit hdegree block).trans (if_neg (not_not_intro hblock)))
    refine ⟨⟨en, degree.setWidth 8, block⟩, rfl, setparDegree_width hlegal hdegree, rfl, ?_, ?_, ?_⟩
    · rintro rfl
      exact hexec (.inl rfl)
    · rintro rfl
      exact hexec (.inr (.inl rfl))
    · rintro rfl
      exact hexec (.inr (.inr rfl))

/-! ### The profiles, LANES and NPROC never matter (R386) -/

/-- The state in a build with another NPROC. -/
def State.withNproc (s : State) (n : Nat) : State := { s with cfg := { s.cfg with nproc := n } }

/-- The checks of DG.INIT see NPROC and nothing else of what R386 is about (R284). -/
theorem commandCheck_dgInit_withNproc (alg : HashAlg) (a n : Word) (s : State) :
    commandCheck (.dgInit alg a n) s = commandCheck (.dgInit alg a n) (s.withoutParallel.withNproc s.cfg.nproc) :=
  rfl

/-- But for SYS.SETPAR and DG.INIT, the checks of a command do not see a profile, LANES or NPROC. -/
theorem commandCheck_withoutParallel {i : Instr} (hsetpar : ∀ u e d b, i ≠ .sysSetpar u e d b)
    (hdg : ∀ alg a n, i ≠ .dgInit alg a n) (s : State) : commandCheck i s = commandCheck i s.withoutParallel := by
  cases i with
  | sysSetpar u e d b => exact absurd rfl (hsetpar u e d b)
  | dgInit alg a n => exact absurd rfl (hdg alg a n)
  | _ => rfl

/-- Two states that agree but for the profiles, LANES and NPROC fail the same check, with the exceptions of R386. -/
theorem commandCheck_of_withoutParallel {i : Instr} {s s' : State} (h : s.withoutParallel = s'.withoutParallel)
    (hsetpar : ∀ u e d b, i ≠ .sysSetpar u e d b)
    (hnproc : (∃ alg a n, i = .dgInit alg a n) → s.cfg.nproc = s'.cfg.nproc) :
    commandCheck i s = commandCheck i s' := by
  by_cases hdg : ∃ alg a n, i = .dgInit alg a n
  · have hsame := hnproc hdg
    obtain ⟨alg, a, n, rfl⟩ := hdg
    rw [commandCheck_dgInit_withNproc, commandCheck_dgInit_withNproc alg a n s', h, hsame]
  · push Not at hdg
    rw [commandCheck_withoutParallel hsetpar hdg, commandCheck_withoutParallel hsetpar hdg s', h]

/-- Taking the tag keeps the profile and does not see it (R246). -/
theorem GcmUnit.calcTag_setPar (u : GcmUnit) (par : Par) :
    GcmUnit.calcTag { u with par := par } = { u.calcTag with par := par } := by
  simp only [GcmUnit.calcTag]

/-- The next session of auto-increment keeps the profile and does not see it (R247). -/
theorem GcmUnit.autoReinit_setPar (u : GcmUnit) (par : Par) :
    GcmUnit.autoReinit { u with par := par } = { u.autoReinit with par := par } := by
  rw [GcmUnit.autoReinit_eq, GcmUnit.autoReinit_eq]
  rfl

/-- The tag step keeps the profile and does not see it (R248). -/
theorem GcmUnit.takeTag_setPar (u : GcmUnit) (par : Par) :
    GcmUnit.takeTag { u with par := par } = ({ u.takeTag.1 with par := par }, u.takeTag.2) := by
  refine Prod.ext ?_ (by rw [GcmUnit.takeTag_tag, GcmUnit.takeTag_tag])
  by_cases hp : u.phase = .finalized
  · rw [GcmUnit.takeTag_of_finalized hp, GcmUnit.takeTag_of_finalized (u := { u with par := par }) hp]
  · by_cases hauto : u.autoInc = true
    · rw [GcmUnit.takeTag_of_autoInc hp hauto, GcmUnit.takeTag_of_autoInc (u := { u with par := par }) hp hauto,
        GcmUnit.calcTag_setPar, GcmUnit.autoReinit_setPar]
    · have hsingle : u.autoInc = false := Bool.eq_false_of_not_eq_true hauto
      rw [GcmUnit.takeTag_of_not_autoInc hp hsingle,
        GcmUnit.takeTag_of_not_autoInc (u := { u with par := par }) hp hsingle, GcmUnit.calcTag_setPar]

/-- But for SYS.SETPAR, the effect of a command does not see a profile, LANES or NPROC. -/
theorem commandEffect_withoutParallel {i : Instr} (hsetpar : ∀ u e d b, i ≠ .sysSetpar u e d b) (s : State) :
    (commandEffect i s).withoutParallel = commandEffect i s.withoutParallel := by
  cases i with
  | sysSetpar u e d b => exact absurd rfl (hsetpar u e d b)
  | gcmFinal | gcmVerify =>
    have htag : s.withoutParallel.gcm.takeTag = _ := s.gcm.takeTag_setPar Par.reset
    simp only [commandEffect, gcmFinalEffect, gcmVerifyEffect, gcmVerdict, htag]
    rfl
  | _ => rfl

/-- The unit effect of an error does not see a profile, LANES or NPROC (R410). -/
theorem unitEffect_withoutParallel (u : UnitId) (s : State) :
    (unitEffect u s).withoutParallel = unitEffect u s.withoutParallel := by
  cases u with
  | gcm => exact apply_ite State.withoutParallel _ _ _
  | _ => rfl

/-- An error does not see a profile, LANES or NPROC (R405). -/
theorem raiseError_withoutParallel (u : UnitId) (c : Cause) (s : State) :
    (raiseError u c s).withoutParallel = raiseError u c s.withoutParallel := by
  rw [raiseError, raiseError, ← unitEffect_withoutParallel]
  rfl

/-- Settles O24: both runs fail the same check or both pass, and neither the error nor the effect sees what differs. -/
theorem profilesNeverMatter : Obligations.ProfilesNeverMatter := by
  intro i s s' h hsetpar hnproc
  have hcheck := commandCheck_of_withoutParallel h hsetpar hnproc
  cases hc : commandCheck i s with
  | some c =>
    refine ⟨_, _, raises_of_check hc, raises_of_check (hcheck.symm.trans hc), ?_⟩
    rw [raiseError_withoutParallel, raiseError_withoutParallel, h]
  | none =>
    refine ⟨_, _, exec_of_passed hc, exec_of_passed (hcheck.symm.trans hc), ?_⟩
    rw [commandEffect_withoutParallel hsetpar, commandEffect_withoutParallel hsetpar, h]

end Sys2Proof.Machine
end

section
/-! The errors (spec/60_exceptions.md R400 to R431): the table of the causes, what `raise` leaves behind, the word it
puts in STATUS, the errors of the decoder, and the refusals of an uninitialized unit. -/

namespace Sys2Proof.Machine

/-! ### The causes (R401, R402) -/

theorem mem_allCauses_or_reserved (c : Cause) : c ∈ Cause.bufferSize :: allCauses := by cases c <;> decide

theorem causeCodes_nodup : ((Cause.bufferSize :: allCauses).map Cause.code).Nodup := by decide

/-- A cause is determined by its code (R402). -/
theorem Cause.code_injective : Function.Injective Cause.code := fun c d h =>
  List.inj_on_of_nodup_map causeCodes_nodup (mem_allCauses_or_reserved c) (mem_allCauses_or_reserved d) h

/-- Settles O26: the table is read off, and no code occurs twice in it. -/
theorem causeTable : Obligations.CauseTable := ⟨rfl, fun _ _ h => Cause.code_injective h⟩

/-! ### The end of every command (R409, R460) -/

/-- Settles O16: a command ends by the error of its failing check or by its effect, and both clear BUSY. -/
theorem everyCommandEnds : Obligations.EveryCommandEnds := by
  intro i s
  cases hc : commandCheck i s with
  | some c => exact ⟨_, raises_of_check hc, rfl⟩
  | none => exact ⟨_, exec_of_passed hc, by rw [commandEffect_status]; rfl⟩

/-! ### What an error leaves behind (R405, R410) -/

/-- A command that ends with an error has raised one of its causes (R405, R430). -/
theorem raised_of_exec_err {i : Instr} {s t : State} (h : exec i s = .next t) (herr : t.status.err = true) :
    ∃ c ∈ i.causes, t = raiseError i.unit c s := by
  rcases exec_cases h with hraise | ⟨-, rfl⟩
  · exact hraise
  · simp [commandEffect_err] at herr

/-- A finalized session of unit GCM survives an error of its unit (R410). -/
theorem raiseError_gcm_of_finalized {s : State} (hp : s.gcm.phase = .finalized) (c : Cause) :
    (raiseError .gcm c s).gcm = s.gcm := by
  rw [raiseError, unitEffect, if_pos hp]

/-- An error of unit GCM in any other phase zeroizes the unit but for its replay guard (R65, R410). -/
theorem raiseError_gcm_of_not_finalized {s : State} (hp : s.gcm.phase ≠ .finalized) (c : Cause) :
    (raiseError .gcm c s).gcm = s.gcm.zeroize := by
  rw [raiseError, unitEffect, if_neg hp]

/-- Settles O17: the state is that of `raise`, whose frame holds for every unit; what is left is the unit effect, unit
by unit. -/
theorem errorsArePrecise : Obligations.ErrorsArePrecise := by
  intro i s t h herr
  obtain ⟨c, hc, rfl⟩ := raised_of_exec_err h herr
  refine ⟨c, hc, rfl, rfl, raiseError_dmem _ _ _, raiseError_draws _ _ _, raiseError_hostSide _ _ _,
    raiseError_other _ _ _, raiseError_jent _ _ _, ?gh, ?ctr, ?finalized, ?unfinished, ?dg, ?ss, ?drbg⟩
  case finalized => exact fun hu hp => hu ▸ raiseError_gcm_of_finalized hp c
  case unfinished => exact fun hu hp => hu ▸ raiseError_gcm_of_not_finalized hp c
  all_goals
    intro hu
    rw [hu]
    rfl

/-! ### The STATUS word of an error (R431) -/

theorem unitNumber_setWidth (u : UnitId) :
    (BitVec.ofNat 4 u.number).setWidth 32 = BitVec.ofNat 32 u.number := by
  cases u <;> rfl

/-- A concatenation, widened, is its two parts or-ed together, the upper one shifted above the lower one. -/
theorem setWidth_append_eq_or {n m : Nat} (w : Nat) (x : BitVec n) (y : BitVec m) :
    (x ++ y).setWidth w = x.setWidth w <<< m ||| y.setWidth w := by
  apply BitVec.eq_of_getLsbD_eq
  intro i hi
  by_cases hlow : i < m
  · simp [BitVec.getLsbD_append, hi, hlow]
  · have hy : y.getLsbD i = false := y.getLsbD_of_ge i (Nat.le_of_not_lt hlow)
    simp [BitVec.getLsbD_append, hi, hlow, hy]

/-- STATUS with ERR set and BUSY and VOK clear, as its fields or-ed together (R36). -/
theorem statusWord_err (fault : Bool) (ekind eunit : BitVec 4) (ecause : Byte) :
    statusWord ⟨false, true, false, fault, ekind, eunit, ecause⟩ =
      (ecause.setWidth 32 <<< 16) ||| (eunit.setWidth 32 <<< 12) ||| (ekind.setWidth 32 <<< 8) ||| 0x04 |||
        (if fault then 0x10 else 0) := by
  rw [← BitVec.setWidth_eq (statusWord _), statusWord]
  simp only [setWidth_append_eq_or, BitVec.shiftLeft_or_distrib, ← BitVec.shiftLeft_add]
  cases fault <;> simp [bit, BitVec.or_assoc]

theorem statusWord_raised (st : Status) (u : UnitId) (c : Cause) :
    statusWord (st.raised u c) =
      (c.code.setWidth 32 <<< 16) ||| (BitVec.ofNat 32 u.number <<< 12) ||| (c.kind.code.setWidth 32 <<< 8) |||
        0x04 ||| (if st.fault then 0x10 else 0) := by
  rw [← unitNumber_setWidth]
  exact statusWord_err _ _ _ _

/-- Settles O12: STATUS after an error is that of `raise`. -/
theorem statusWordOfError : Obligations.StatusWordOfError := by
  intro i s t h herr
  obtain ⟨c, hc, rfl⟩ := raised_of_exec_err h herr
  exact ⟨c, hc, statusWord_raised _ _ _⟩

/-! ### Decoding errors (R411) -/

/-- The sequencer with an undecodable descriptor: the decoding error, then the report (R116, R117). -/
theorem sequencerStep_of_illegal {s : State} {e : DecodeError} (h : s.decoded = .illegal e) :
    sequencerStep s = .next (report (raiseDecode e s)) := by
  simp [sequencerStep, runCommand, h]

/-- Settles O6: the step is the sequencer's, a decoding error is one of unit SYS, and FAULT is clear in its STATUS
word because a command is due. -/
theorem stepReportsDecodeError : Obligations.StepReportsDecodeError := by
  refine ⟨fun s e hdue he => ⟨?_, rfl, by cases e <;> rfl, ?_⟩, by decide⟩
  · exact (step_sequencer hdue).trans (sequencerStep_of_illegal he)
  · obtain ⟨-, -, hfault⟩ := hdue
    rw [statusWord_raised, hfault]
    cases e <;> rfl

/-! ### Uninitialized units (R402, R407) -/

/-- Settles O25: the phase of the unit is the first check of each of these commands. -/
theorem uninitRefuses : Obligations.UninitRefuses := by
  intro s a b n tl
  refine ⟨fun hp => ?ctr, fun hp => ?gcm, fun hp => ?dg, fun hp => ?ss, fun hp => ?drbg⟩
  case ctr => exact raises_of_check (if_pos (by simp [hp]))
  case gcm =>
    simp only [List.forall_mem_cons]
    exact ⟨raises_of_check (if_pos hp), raises_of_check (if_pos hp), raises_of_check (if_pos hp),
      raises_of_check (if_pos hp), nofun⟩
  case dg =>
    have hready : s.dg.phase ≠ .ready := by simp [hp]
    simp only [List.forall_mem_cons]
    exact ⟨raises_of_check (if_pos hready), raises_of_check (if_pos hready), raises_of_check (if_pos hready),
      raises_of_check (if_pos hready), nofun⟩
  case ss => exact raises_of_check (if_pos (by simp [hp]))
  case drbg =>
    have hready : s.drbg.phase ≠ .ready := by simp [hp]
    simp only [List.forall_mem_cons]
    exact ⟨raises_of_check (if_pos hready), raises_of_check (if_pos hready), nofun⟩

end Sys2Proof.Machine
end

section
/-! Hardware reset as a step, at any time and in the fault state (spec/70_reset_and_hazards.md R440, R450). -/

namespace Sys2Proof.Machine

/-- A hardware reset waits for no command that runs, unless the host makes it wait, and is taken in the fault state
too (R440, R450). -/
theorem step_hardReset {s : State} {e : Bool} {rest : List HostEvent}
    (he : s.status.busy = true → s.status.fault = false → e = true) (hi : s.inbox = ⟨.hardReset, e⟩ :: rest) :
    step s = .next (hardReset { s with inbox := rest }) := by
  cases hf : s.status.fault with
  | true => exact step_stuck hf hi
  | false =>
    rw [step_of_move (fun hb => he hb hf) hf hi]
    cases s.status.busy with
    | true => rfl
    | false => rfl

/-- Settles O15: the step is the hardware reset, whose free DMEM is in canonical form and which is the reset state of
the build but for the lists of the host and the draw counter. -/
theorem hardResetState : Obligations.HardResetState :=
  fun _ _ _ he hi => ⟨_, step_hardReset he hi, hardReset_memoryOk _, rfl⟩

end Sys2Proof.Machine
end
